-- ==== Sys2Proof/Word.lean ====
section
/-! DEFINITION. The word types of the block: the byte that every access moves (spec/20_memory.md R77, R88) and the
32-bit command word of port CMD (spec/30_encoding.md R110). -/

namespace Sys2Proof

/-- One byte: the only access width of the block (R88). -/
abbrev Byte := BitVec 8

/-- A command word as presented on port CMD (R110). -/
abbrev CmdWord := BitVec 32

end Sys2Proof
end

