-- ==== Sys2Proof/Syntax.lean ====
section
/-! DEFINITION. The abstract syntax of the seven commands (spec/30_encoding.md R113, R114), one constructor for each row of
spec/opcode_table.json, and the reasons a word is not a command (R121). -/

namespace Sys2Proof

/-- A command (R114). Operand widths are R6's and R40's: DEV 7 bits, REGA, LEN and VAL 8 bits, KHZ 16 bits, PU one bit.
The data of WRBLK and RDBLK is the buffer space BUF and no part of the command. -/
inductive Instr where
  /-- CONFIGURE khz, pu (R190). -/
  | configure (khz : BitVec 16) (pu : Bool)
  /-- BEGIN dev (R200), the source's begin-transaction. -/
  | beginTrans (dev : BitVec 7)
  /-- SEND val (R210). -/
  | send (val : Byte)
  /-- WRBLK dev, reg, len (R220). -/
  | wrblk (dev : BitVec 7) (reg len : Byte)
  /-- RDBLK dev, reg, len (R230). -/
  | rdblk (dev : BitVec 7) (reg len : Byte)
  /-- STOP (R250). -/
  | stop
  /-- RESET (R255). -/
  | reset
  deriving DecidableEq, Repr

/-- Why a word is not legal (R121). -/
inductive IllegalWord where
  /-- OP is 0x0 or 0x8 to 0xF (R113). -/
  | reservedOpcode (op : BitVec 4)
  /-- A must-be-zero bit of the word's format is 1 (R111). -/
  | mustBeZero
  /-- CONFIGURE with KHZ = 0 (R115, R121). -/
  | zeroClock
  deriving DecidableEq, Repr

end Sys2Proof
end

