-- ==== Sys2Proof/WellFormed.lean ====
section
/-! DEFINITION. When a command is legal (spec/30_encoding.md R121): its operands already have their widths, so the one
check left is by value, KHZ of CONFIGURE. -/

namespace Sys2Proof

/-- R121: every command is legal but CONFIGURE with a clock rate of 0. -/
def Instr.wf : Instr → Bool
  | .configure khz _ => khz != 0
  | .beginTrans _ => true
  | .send _ => true
  | .wrblk _ _ _ => true
  | .rdblk _ _ _ => true
  | .stop => true
  | .reset => true

end Sys2Proof
end

