-- ==== Sys2Proof/Decode.lean ====
section
/-! DEFINITION. Decoder and encoder of the command word (spec/30_encoding.md R110 to R121). The decoder is total: it answers
one of the seven commands with its operands, or says why the word is illegal. -/

namespace Sys2Proof

/-- `OP = W[31:28]` (R110). -/
def fieldOP (w : CmdWord) : BitVec 4 := w.extractLsb' 28 4

/-- `KHZ = W[15:0]` (R115). -/
def fieldKHZ (w : CmdWord) : BitVec 16 := w.extractLsb' 0 16

/-- `PU = W[16]` (R115). -/
def fieldPU (w : CmdWord) : Bool := w.getLsbD 16

/-- `DEV = W[22:16]` (R116, R118). -/
def fieldDEV (w : CmdWord) : BitVec 7 := w.extractLsb' 16 7

/-- `REGA = W[15:8]` (R118). -/
def fieldREGA (w : CmdWord) : Byte := w.extractLsb' 8 8

/-- `C = W[7:0]` (R110): VAL of format V (R117), LEN of format B (R118). -/
def fieldC (w : CmdWord) : Byte := w.extractLsb' 0 8

/-- The mask of format K (R115). -/
def maskK : CmdWord := 0xFFFE0000
/-- The mask of format D (R116). -/
def maskD : CmdWord := 0xFF80FFFF
/-- The mask of format V (R117). -/
def maskV : CmdWord := 0xFFFFFF00
/-- The mask of format B (R118). -/
def maskB : CmdWord := 0xFF800000
/-- The mask of format N (R119). -/
def maskN : CmdWord := 0xFFFFFFFF

/-- Answer `i` if the word agrees with its row's match under its row's mask, else refuse it: a must-be-zero bit is set
(R111, R121). -/
def decodeRow (w mask pattern : CmdWord) (i : Instr) : Except IllegalWord Instr :=
  if w &&& mask = pattern then .ok i else .error .mustBeZero

/-- R121: an operand refused by value. -/
def refuseZeroClock (r : Except IllegalWord Instr) : Except IllegalWord Instr :=
  match r with
  | .ok i => if i.wf then .ok i else .error .zeroClock
  | .error e => .error e

/-- The decoder (R113, R121). -/
def decode (w : CmdWord) : Except IllegalWord Instr :=
  match (fieldOP w).toNat with
  | 1 => refuseZeroClock (decodeRow w maskK 0x10000000 (.configure (fieldKHZ w) (fieldPU w)))
  | 2 => decodeRow w maskD 0x20000000 (.beginTrans (fieldDEV w))
  | 3 => decodeRow w maskV 0x30000000 (.send (fieldC w))
  | 4 => decodeRow w maskB 0x40000000 (.wrblk (fieldDEV w) (fieldREGA w) (fieldC w))
  | 5 => decodeRow w maskB 0x50000000 (.rdblk (fieldDEV w) (fieldREGA w) (fieldC w))
  | 6 => decodeRow w maskN 0x60000000 .stop
  | 7 => decodeRow w maskN 0x70000000 .reset
  | _ => .error (.reservedOpcode (fieldOP w))

/-- The opcode of a command (R113), the value latched in OPC (R112). -/
def Instr.opcode : Instr → BitVec 4
  | .configure _ _ => 1
  | .beginTrans _ => 2
  | .send _ => 3
  | .wrblk _ _ _ => 4
  | .rdblk _ _ _ => 5
  | .stop => 6
  | .reset => 7

/-- Fields A, B and C of a command's word, 24 bits, laid out as R111's table writes them. -/
def Instr.operandBits : Instr → BitVec 24
  | .configure khz pu => (0#7 ++ BitVec.ofBool pu) ++ khz
  | .beginTrans dev => (0#1 ++ dev) ++ 0#16
  | .send val => 0#16 ++ val
  | .wrblk dev reg len => ((0#1 ++ dev) ++ reg) ++ len
  | .rdblk dev reg len => ((0#1 ++ dev) ++ reg) ++ len
  | .stop => 0
  | .reset => 0

/-- The encoder: `OP ++ 0000 ++ A ++ B ++ C` (R110, R111). -/
def encode (i : Instr) : CmdWord := (i.opcode ++ 0#4) ++ i.operandBits

/-- The command the decoder reads from the `nbits` bits `w` (every bit above them 0); none where it refuses. A command
word is a value and has no byte order (spec/20_memory.md R86). -/
def decodeTableWord (nbits w : Nat) : Option Instr :=
  match decode (BitVec.ofNat 32 (w % 2 ^ nbits)) with
  | .ok i => some i
  | .error _ => none

end Sys2Proof
end

