-- ==== Sys2Proof/Config.lean ====
section
/-! DEFINITION. What an implementation fixes (spec/00_scope.md R6 to R12: one configuration record) and the values the spec
leaves free (`draw`, R14; PERIPH's answers, spec/20_memory.md R80). The record's default values are in Machine/Defaults.lean.
DESIGN CHOICE, safe (log 1): the record is a field of State that no step changes. -/

namespace Sys2Proof

/-- R8: the positions of the five named bits of CTRL. -/
structure BitPositions where
  bEn : Fin 8
  bSta : Fin 8
  bSto : Fin 8
  bInt : Fin 8
  bEa : Fin 8
  deriving DecidableEq, Repr

/-- R9: the seven control words. -/
structure ControlWords where
  start : Byte
  xfer : Byte
  rxAck : Byte
  rxNack : Byte
  stop : Byte
  enable : Byte
  reset : Byte
  deriving DecidableEq, Repr

/-- R10: the status codes S_START … S_RXD_NACK. -/
structure StatusCodes where
  start : Byte
  repStart : Byte
  slawAck : Byte
  slawNack : Byte
  txdAck : Byte
  txdNack : Byte
  arbLost : Byte
  slarAck : Byte
  slarNack : Byte
  rxdAck : Byte
  rxdNack : Byte
  deriving DecidableEq, Repr

/-- The four codes `cST, cSS, cAT, cAS` a command hands to ADDRESS (spec/40_micro_sequences.md R165). -/
structure AddrCodes where
  startTimeout : Byte
  startStatus : Byte
  addrTimeout : Byte
  addrStatus : Byte
  deriving DecidableEq, Repr

/-- The two codes `cT, cS` a command hands to TXBYTE (R170). -/
structure TxCodes where
  timeout : Byte
  status : Byte
  deriving DecidableEq, Repr

/-- R11: the 26 result codes, by command. -/
structure ResultCodes where
  /-- E_BT_START_TIMEOUT, E_BT_START_STATUS, E_BT_ADDR_TIMEOUT, E_BT_ADDR_STATUS. -/
  bt : AddrCodes
  /-- E_SB_TIMEOUT, E_SB_STATUS. -/
  sb : TxCodes
  /-- E_ST_TIMEOUT. -/
  stTimeout : Byte
  /-- E_WB_START_TIMEOUT, E_WB_START_STATUS, E_WB_ADDR_TIMEOUT, E_WB_ADDR_STATUS. -/
  wb : AddrCodes
  /-- E_WB_REG_TIMEOUT, E_WB_REG_STATUS. -/
  wbReg : TxCodes
  /-- E_WB_DATA_TIMEOUT, E_WB_DATA_STATUS. -/
  wbData : TxCodes
  /-- E_RB_A_START_TIMEOUT, E_RB_A_START_STATUS, E_RB_A_ADDR_TIMEOUT, E_RB_A_ADDR_STATUS. -/
  rbA : AddrCodes
  /-- E_RB_REG_TIMEOUT, E_RB_REG_STATUS. -/
  rbReg : TxCodes
  /-- E_RB_B_START_TIMEOUT, E_RB_B_START_STATUS, E_RB_B_ADDR_TIMEOUT, E_RB_B_ADDR_STATUS. -/
  rbB : AddrCodes
  /-- E_RB_DATA_TIMEOUT. -/
  rbDataTimeout : Byte
  deriving DecidableEq, Repr

/-- R12: where DIVISOR comes from. -/
inductive DivisorRule where
  /-- R12's default formula over the reference frequency F_REF_KHZ. -/
  | reference (fRefKhz : Nat)
  /-- Any other function of the clock rate alone: Config.platformDivisor. -/
  | platform
  deriving DecidableEq, Repr

/-- The configuration record (R6 to R12). -/
structure Config where
  /-- POLL_LIMIT (R7). -/
  pollLimit : Byte
  /-- ADDR_RETRIES (R7), 0 to 3. -/
  addrRetries : BitVec 2
  /-- STATUS_MASK (R7). -/
  statusMask : Byte
  /-- MAX_CODE (R7). -/
  maxCode : Byte
  bits : BitPositions
  cw : ControlWords
  status : StatusCodes
  codes : ResultCodes
  divisor : DivisorRule
  deriving DecidableEq, Repr

/-- What PERIPH does at a moment it is enabled (R79, R80): nothing, or its one step with the drawn STAT and DATA. -/
inductive PeriphMove where
  | stay
  | complete (stat data : Byte)
  deriving DecidableEq, Repr, Inhabited

/-- Free value (R80, log 7): PERIPH's n-th move once the script in State has ended. -/
opaque Config.freePeriphMove : Nat → PeriphMove

/-- Free value (R14, log 11 and 12): the n-th `draw(byte)`. -/
opaque Config.freeByte : Nat → Byte

/-- R12: the implementation's DIVISOR, none where it is "unspecified"; nothing is assumed of it but that it depends on
the clock rate alone. -/
opaque Config.platformDivisor : BitVec 16 → Option Byte

/-- R8: the five positions are pairwise distinct. -/
def BitPositions.wf (b : BitPositions) : Bool :=
  decide ([b.bEn, b.bSta, b.bSto, b.bInt, b.bEa].Nodup)

/-- R8, R36: a control word is 0 in the three positions that are not named. -/
def ControlWords.namedOnly (b : BitPositions) (w : Byte) : Bool :=
  (List.finRange 8).all fun n =>
    decide (n ∈ [b.bEn, b.bSta, b.bSto, b.bInt, b.bEa]) || !w.getLsbD n

/-- R9, D8: a word that triggers a phase has INT = 1 and EN = 1. -/
def ControlWords.active (b : BitPositions) (w : Byte) : Bool :=
  w.getLsbD b.bInt && w.getLsbD b.bEn && ControlWords.namedOnly b w

/-- R9, D8: the constraints on the seven control words. -/
def ControlWords.wf (b : BitPositions) (c : ControlWords) : Bool :=
  ControlWords.active b c.start && ControlWords.active b c.xfer && ControlWords.active b c.rxAck &&
    ControlWords.active b c.rxNack && ControlWords.active b c.stop &&
    (!c.enable.getLsbD b.bInt && c.enable.getLsbD b.bEn && ControlWords.namedOnly b c.enable) &&
    c.reset == 0

/-- R10: low three bits zero; the two pairs ADDRESS tells apart differ. -/
def StatusCodes.wf (c : StatusCodes) : Bool :=
  [c.start, c.repStart, c.slawAck, c.slawNack, c.txdAck, c.txdNack, c.arbLost, c.slarAck, c.slarNack, c.rxdAck,
    c.rxdNack].all (fun v => v &&& 7 == 0) && c.slawAck != c.slawNack && c.slarAck != c.slarNack

/-- R11: the codes of one command lie in 1..MAX_CODE and are pairwise distinct. -/
def ResultCodes.group (maxCode : Byte) (cs : List Byte) : Bool :=
  decide cs.Nodup && cs.all fun c => 1#8 ≤ c && c ≤ maxCode

/-- The codes of an ADDRESS as a list. -/
def AddrCodes.toList (c : AddrCodes) : List Byte := [c.startTimeout, c.startStatus, c.addrTimeout, c.addrStatus]

/-- The codes of a TXBYTE as a list. -/
def TxCodes.toList (c : TxCodes) : List Byte := [c.timeout, c.status]

/-- R11 for every command that returns a status. -/
def ResultCodes.wf (maxCode : Byte) (c : ResultCodes) : Bool :=
  ResultCodes.group maxCode c.bt.toList && ResultCodes.group maxCode c.sb.toList &&
    ResultCodes.group maxCode [c.stTimeout] &&
    ResultCodes.group maxCode (c.wb.toList ++ c.wbReg.toList ++ c.wbData.toList) &&
    ResultCodes.group maxCode (c.rbA.toList ++ c.rbReg.toList ++ c.rbB.toList ++ [c.rbDataTimeout])

/-- Every constraint R7 to R11 put on the record. -/
def Config.wf (c : Config) : Bool :=
  1#8 ≤ c.pollLimit && c.statusMask == 0xF8 && c.maxCode == 26 && c.bits.wf && c.cw.wf c.bits && c.status.wf &&
    c.codes.wf c.maxCode

end Sys2Proof
end

