-- ==== Sys2Proof/Machine/Defaults.lean ====
section
/-! DEFINITION. The default values of the configuration record (spec/00_scope.md R7 to R12) and the divisor function (R12).
PRESUMED, unsafe for a claim about the run from reset alone (log 2): the spec itself takes most of these numbers from general
knowledge, and its test vectors use them. -/

namespace Sys2Proof.Machine

/-- R8: B_EN = 2, B_STA = 5, B_STO = 4, B_INT = 7, B_EA = 6. -/
def defaultBits : BitPositions := { bEn := 2, bSta := 5, bSto := 4, bInt := 7, bEa := 6 }

/-- R9: the control words under the defaults. -/
def defaultControlWords : ControlWords :=
  { start := 0xA4, xfer := 0x84, rxAck := 0xC4, rxNack := 0x84, stop := 0x94, enable := 0x04, reset := 0x00 }

/-- R10: the default status values. -/
def defaultStatusCodes : StatusCodes :=
  { start := 0x08, repStart := 0x10, slawAck := 0x18, slawNack := 0x20, txdAck := 0x28, txdNack := 0x30,
    arbLost := 0x38, slarAck := 0x40, slarNack := 0x48, rxdAck := 0x50, rxdNack := 0x58 }

/-- R11: the default result codes. -/
def defaultResultCodes : ResultCodes :=
  { bt := { startTimeout := 1, startStatus := 2, addrTimeout := 3, addrStatus := 4 }
    sb := { timeout := 1, status := 2 }
    stTimeout := 1
    wb := { startTimeout := 1, startStatus := 2, addrTimeout := 3, addrStatus := 4 }
    wbReg := { timeout := 5, status := 6 }
    wbData := { timeout := 7, status := 8 }
    rbA := { startTimeout := 16, startStatus := 17, addrTimeout := 18, addrStatus := 19 }
    rbReg := { timeout := 20, status := 21 }
    rbB := { startTimeout := 22, startStatus := 23, addrTimeout := 24, addrStatus := 25 }
    rbDataTimeout := 26 }

/-- The configuration record at the spec's defaults (R7 to R12); F_REF_KHZ is 16000. -/
def defaultConfig : Config :=
  { pollLimit := 250, addrRetries := 2, statusMask := 0xF8, maxCode := 26, bits := defaultBits,
    cw := defaultControlWords, status := defaultStatusCodes, codes := defaultResultCodes,
    divisor := .reference 16000 }

/-- R12's default formula: `((F_REF_KHZ div khz) - 16) div 2` where the quotient is at least 16 and the result at most
255, otherwise "unspecified". -/
def referenceDivisor (fRefKhz : Nat) (khz : BitVec 16) : Option Byte :=
  let q := fRefKhz / khz.toNat
  if 16 ≤ q ∧ (q - 16) / 2 ≤ 255 then some (BitVec.ofNat 8 ((q - 16) / 2)) else none

/-- `DIVISOR(khz)` (R12). -/
def divisor (rule : DivisorRule) (khz : BitVec 16) : Option Byte :=
  match rule with
  | .reference fRefKhz => referenceDivisor fRefKhz khz
  | .platform => Config.platformDivisor khz

end Sys2Proof.Machine
end

