-- ==== Sys2Proof/Machine/State.lean ====
section
/-! DEFINITION. The state of the block as plain data (spec/10_state.md R30 to R52), the agents' inputs, the port events, the
faults and refusals, and the state after power-on reset (R52, spec/70_reset_and_hazards.md R320). -/

namespace Sys2Proof.Machine

/-- DIR (R44): the direction bit of the address phase; 0 = write, 1 = read (R125). -/
inductive Dir where
  | write
  | read
  deriving DecidableEq, Repr

/-- PH, the block's program counter: IDLE or one phase for each kind of access (the table of R45). -/
inductive Phase where
  | idle
  | cfgDiv | cfgPu | cfgEn
  | aStart | aStartWait | aStartStat | aAddrData | aAddrTrig | aAddrWait | aAddrStat
  | tFetch | tData | tTrig | tWait | tStat
  | rTrig | rWait | rStat | rData | rStore
  | sTrig | sWait
  | xCtrl
  deriving DecidableEq, Repr

/-- SEG (R45): which part of which command is running. -/
inductive Seg where
  | cfg
  | bt
  | sb
  | wbAddr | wbReg | wbData
  | rbA | rbReg | rbB | rbData | rbStop
  | st
  | rst
  deriving DecidableEq, Repr

/-- The five locations of the IO space, addressed by name (spec/20_memory.md R70). -/
inductive IoReg where
  | ctrl | stat | data | div | pullup
  deriving DecidableEq, Repr

/-- One event on a port of the block (R71; the trace lines of spec/95_test_vectors.md section 0). -/
inductive PortEvent where
  /-- CMD: the accepted command word. -/
  | issued (w : CmdWord)
  /-- IO: `MemWrite(IO:r, 1, v)`. -/
  | ioWrite (r : IoReg) (v : Byte)
  /-- IO: a poll, `MemRead(IO:CTRL, 1)`, with the value of bit B_INT it saw. -/
  | poll (int : Bool)
  /-- IO: `MemRead(IO:r, 1)` of STAT or DATA, with the byte returned. -/
  | ioRead (r : IoReg) (v : Byte)
  /-- BUFP: `MemRead(BUF:i, 1)`. -/
  | bufRead (i : Nat) (v : Byte)
  /-- BUFP: `MemWrite(BUF:i, 1, v)`. -/
  | bufWrite (i : Nat) (v : Byte)
  /-- RSP: idle again; `some code` after `finish(code)`, `none` after `finish()`. -/
  | finished (code : Option Byte)
  /-- RSP: the host reads RESULT. -/
  | hostResult (v : Byte)
  /-- The host writes a byte of its buffer. -/
  | hostBufWrite (i : Nat) (v : Byte)
  /-- The host reads a byte of its buffer. -/
  | hostBufRead (i : Nat) (v : Byte)
  deriving DecidableEq, Repr

/-- What HOST does next (R71, R78). -/
inductive HostEvent where
  /-- HOST does nothing: the other agents may move. -/
  | wait
  /-- `issue(word)`, the host then waiting for IDLE: the whole command is one step (log 13). -/
  | issue (w : CmdWord)
  /-- `issue(word)` as R112's acceptance alone: every access of SEQ is then a step of its own (R15). -/
  | present (w : CmdWord)
  /-- The host writes `BUF[i]`. -/
  | bufWrite (i v : Byte)
  /-- The host reads `BUF[i]`. -/
  | bufRead (i : Byte)
  /-- The host reads RESULT. -/
  | resultRead
  deriving DecidableEq, Repr

/-- Why the machine stops with a fault. -/
inductive Fault where
  /-- A read of a byte of BUF that holds no value (R48, R52; decision D25 and item U16 say that it faults): raised by
  WRBLK's `MemRead(BUF:i, 1)` and by a host read. Safe: the stop is the spec's. -/
  | bufNoValue (i : Nat)
  /-- A host read of RESULT before any status-returning command has completed: R46 allows the read only after one and calls
  an earlier one "a fault of the model, not a 0" (decision D25 and item U16 say the same). Safe: the stop is the spec's. -/
  | resultNoValue
  /-- PH and SEG name no position of any command (R45). Safe: no step leads there (log 16). -/
  | noPosition (ph : Phase) (seg : Seg)
  deriving DecidableEq, Repr

/-- Why a step has no meaning. -/
inductive Refusal where
  /-- No meaning yet for the instruction: raised by no arm of exec. Safe. -/
  | notModelled (mnemonic : String)
  /-- `Refused(Busy)` (R112, R304): a command presented while PH != IDLE. Safe. -/
  | busy
  /-- `Refused(Illegal)` (R121, R304): the word is not legal. Safe. -/
  | illegal (why : IllegalWord)
  /-- The host touches BUF or reads RESULT while PH != IDLE, which R331 and R46 forbid (log 18). Safe. -/
  | hostNotIdle
  deriving DecidableEq, Repr

/-- BUF: the bytes that hold a value, by index, in one canonical form (`Memory.wf` of Machine/Ops.lean). -/
abbrev Memory := List Host.Cell

/-- The state of the block (R52's table) with the agents' inputs and the port events. -/
structure State where
  /-- CTRL.EN (R30). -/
  en : Bool
  /-- CTRL.STA (R30). -/
  sta : Bool
  /-- CTRL.STO (R30). -/
  sto : Bool
  /-- CTRL.EA (R30). -/
  ea : Bool
  /-- FLAG (R31). -/
  flag : Bool
  /-- STAT (R32). -/
  stat : Byte
  /-- Has PERIPH written STAT (R74)? -/
  statWritten : Bool
  /-- DATA (R33). -/
  data : Byte
  /-- DIV (R34). -/
  div : Byte
  /-- PU of PULLUP (R35). -/
  pu : Bool
  /-- OPC (R40). -/
  opc : BitVec 4
  /-- DEV (R40). -/
  dev : BitVec 7
  /-- REGA (R40). -/
  rega : Byte
  /-- LEN (R40). -/
  len : Byte
  /-- VAL (R40). -/
  val : Byte
  /-- KHZ (R40). -/
  khz : BitVec 16
  /-- PUEN (R40). -/
  puen : Bool
  /-- IDX (R41). -/
  idx : Byte
  /-- RETRY (R42). -/
  retry : BitVec 2
  /-- POLL (R43). -/
  poll : Byte
  /-- ST (R44). -/
  st : Byte
  /-- ERR (R44). -/
  err : Byte
  /-- DIR (R44). -/
  dir : Dir
  /-- RXB (R44). -/
  rxb : Byte
  /-- TXB (R44). -/
  txb : Byte
  /-- PH (R45). -/
  ph : Phase
  /-- SEG (R45). -/
  seg : Seg
  /-- RESULT (R46). -/
  result : Byte
  /-- Has a status-returning command completed, so that RESULT may be read (R46)? -/
  resultValid : Bool
  /-- BUF (R48). -/
  buf : Memory
  /-- The parameters of R6 to R12, fixed for a run (R51). -/
  cfg : Config
  /-- HOST's coming moves, one a step (log 14). -/
  host : List HostEvent
  /-- PERIPH's coming moves, one for each moment it is enabled (R84; log 7). -/
  script : List PeriphMove
  /-- How many free PERIPH moves have been used (log 7). -/
  clock : Nat
  /-- How many free bytes have been drawn (log 11, log 12). -/
  draws : Nat
  /-- Port events so far, newest first (log 15). -/
  trace : List PortEvent
  deriving DecidableEq, Repr

/-- The machine right after power-on reset (R52, R320): PH = IDLE, CTRL = 0 with FLAG = 0, BUF with no value; every
register the spec leaves unspecified at the value log 3 names (DESIGN CHOICE, unsafe). -/
def State.reset : State :=
  { en := false, sta := false, sto := false, ea := false, flag := false
    stat := 0, statWritten := false, data := 0, div := 0, pu := false
    opc := 0, dev := 0, rega := 0, len := 0, val := 0, khz := 0, puen := false
    idx := 0, retry := 0, poll := 0, st := 0, err := 0, dir := .write, rxb := 0, txb := 0
    ph := .idle, seg := .cfg, result := 0, resultValid := false
    buf := [], cfg := defaultConfig, host := [], script := [], clock := 0, draws := 0, trace := [] }

end Sys2Proof.Machine
end

