-- ==== Sys2Proof/Machine/Flags.lean ====
section
/-! DEFINITION. The one flag of the block, FLAG (spec/10_state.md R31, R49), the bits of CTRL as a read returns them, and the
status comparisons SEQ makes (spec/30_encoding.md R127). -/

namespace Sys2Proof.Machine

/-- FLAG after `MemWrite(IO:CTRL, 1, w)` (R72): cleared if `w[B_INT] = 1` or `w[B_EN] = 0`, else unchanged. -/
def flagAfterCtrlWrite (b : BitPositions) (w : Byte) (flag : Bool) : Bool :=
  if w.getLsbD b.bInt || !w.getLsbD b.bEn then false else flag

/-- R72: does the word trigger the phase it selects? -/
def triggersPhase (b : BitPositions) (w : Byte) : Bool := w.getLsbD b.bInt && w.getLsbD b.bEn

/-- Bit `n` of the byte a read of CTRL returns (R73): FLAG and the four stored fields in their positions, and the bit of
the drawn byte `u` in each position that is not named. -/
def ctrlReadBit (s : State) (u : Byte) (n : Fin 8) : Bool :=
  if n = s.cfg.bits.bInt then s.flag
  else if n = s.cfg.bits.bEn then s.en
  else if n = s.cfg.bits.bSta then s.sta
  else if n = s.cfg.bits.bSto then s.sto
  else if n = s.cfg.bits.bEa then s.ea
  else u.getLsbD n

/-- `v & STATUS_MASK` (R127). -/
def maskStatus (c : Config) (v : Byte) : Byte := v &&& c.statusMask

/-- The start check of ADDRESS (R165): `S_START` or `S_REP_START`. -/
def isStartStatus (c : StatusCodes) (st : Byte) : Bool := st == c.start || st == c.repStart

/-- `ACK(dir)` (R165). -/
def ackOf (c : StatusCodes) : Dir → Byte
  | .write => c.slawAck
  | .read => c.slarAck

/-- `NACK(dir)` (R165). -/
def nackOf (c : StatusCodes) : Dir → Byte
  | .write => c.slawNack
  | .read => c.slarNack

/-- The receive check of RDBLK (spec/43_block_transfers.md R231): both statuses pass, on every byte. -/
def isRxStatus (c : StatusCodes) (st : Byte) : Bool := st == c.rxdAck || st == c.rxdNack

end Sys2Proof.Machine
end

