-- ==== Sys2Proof/Machine/Operands.lean ====
section
/-! DEFINITION. Operands: the latches a command's word loads (spec/30_encoding.md R112, R115 to R120), the address-phase byte
(R125), and the control word of a receive request (spec/43_block_transfers.md R231). -/

namespace Sys2Proof.Machine

/-- The direction as a bit: 0 = write, 1 = read (R125). -/
def Dir.bit : Dir → BitVec 1
  | .write => 0
  | .read => 1

/-- `ADDRBYTE(dev, dir) = (dev << 1) | dir` on 8 bits (R125). -/
def addrByte (dev : BitVec 7) (dir : Dir) : Byte := (dev.setWidth 8 <<< 1) ||| (Dir.bit dir).setWidth 8

/-- `zext_8` of a one-bit operand (spec/41_configure.md R190). -/
def zextBit (b : Bool) : Byte := if b then 1 else 0

/-- The latches of format K (R115). -/
def latchK (khz : BitVec 16) (pu : Bool) (s : State) : State := { s with khz := khz, puen := pu }

/-- The latch of format D (R116). -/
def latchD (dev : BitVec 7) (s : State) : State := { s with dev := dev }

/-- The latch of format V (R117). -/
def latchV (val : Byte) (s : State) : State := { s with val := val }

/-- The latches of format B (R118). -/
def latchB (dev : BitVec 7) (reg len : Byte) (s : State) : State := { s with dev := dev, rega := reg, len := len }

/-- `x[OPC] <- W[31:28]`, then the latches that the format carries (R112); the others are not loaded and keep what they
hold (R40; log 23). -/
def loadLatches (i : Instr) (s : State) : State :=
  let s := { s with opc := i.opcode }
  match i with
  | .configure khz pu => latchK khz pu s
  | .beginTrans dev => latchD dev s
  | .send val => latchV val s
  | .wrblk dev reg len => latchB dev reg len s
  | .rdblk dev reg len => latchB dev reg len s
  | .stop => s
  | .reset => s

/-- The control word of the receive request for byte IDX (R231): `CW_RX_ACK` unless it is the last byte. The comparison
`IDX + 1 < LEN` is made on integers (R185 item 5). -/
def rxWord (s : State) : Byte :=
  if s.idx.toNat + 1 < s.len.toNat then s.cfg.cw.rxAck else s.cfg.cw.rxNack

end Sys2Proof.Machine
end

