-- ==== Sys2Proof/Machine/Ops.lean ====
section
/-! DEFINITION. The named operations: BUF (spec/20_memory.md R85), PERIPH's turn (R79 to R82), the accesses of the IO space
(R72 to R76), the end of a command (spec/00_scope.md R14, spec/60_exceptions.md R298) and its acceptance
(spec/30_encoding.md R112). -/

namespace Sys2Proof.Machine

/-! ## BUF -/

/-- The canonical form: indices strictly rising and below 256. An unlisted byte holds no value, so no entry can equal
what an unlisted index reads as. -/
abbrev Memory.wf (m : Memory) : Prop := m.Pairwise (fun x y => x.1 < y.1) ∧ ∀ c ∈ m, c.1 < 256

/-- The byte at index `a`; none where it holds no value (R52). -/
def Memory.read : Memory → Nat → Option Byte
  | [], _ => none
  | c :: m, a => if c.1 = a then some c.2 else Memory.read m a

/-- `MemWrite(BUF:a, 1, v)`, keeping the canonical form. -/
def Memory.write : Memory → Nat → Byte → Memory
  | [], a, v => [(a, v)]
  | c :: m, a, v =>
    if a < c.1 then (a, v) :: c :: m
    else if a = c.1 then (a, v) :: m
    else c :: Memory.write m a v

/-! ## Port events -/

/-- Record a port event (log 15). -/
def logEvent (e : PortEvent) (s : State) : State := { s with trace := e :: s.trace }

/-! ## PERIPH -/

/-- PERIPH's step is enabled when FLAG = 0 and EN = 1 (R80, R81, R82). -/
def periphEnabled (s : State) : Bool := !s.flag && s.en

/-- The PERIPH step (R80): FLAG is set, STAT and DATA take the drawn bytes, nothing else changes. -/
def periphStep (stat data : Byte) (s : State) : State :=
  { s with flag := true, stat := stat, data := data, statWritten := true }

/-- PERIPH makes a move: none, or its one step. -/
def periphMove (m : PeriphMove) (s : State) : State :=
  match m with
  | .stay => s
  | .complete stat data => periphStep stat data s

/-- The moment between two steps at which PERIPH may take zero or one step (R79). Where it is enabled, the next move of
the script is taken, or, the script ended, the next free move (log 7, log 8). -/
def periphTurn (s : State) : State :=
  if periphEnabled s then
    match s.script with
    | m :: rest => periphMove m { s with script := rest }
    | [] => periphMove (Config.freePeriphMove s.clock) { s with clock := s.clock + 1 }
  else s

/-- SEQ comes to phase `p` (R45): PH names it, and PERIPH may step before SEQ's access. -/
def enter (p : Phase) (s : State) : State := periphTurn { s with ph := p }

/-! ## The IO space -/

/-- `MemWrite(IO:CTRL, 1, w)` (R72). The three unnamed bits of `w` are discarded. -/
def writeCtrl (w : Byte) (s : State) : State :=
  logEvent (.ioWrite .ctrl w)
    { s with
      en := w.getLsbD s.cfg.bits.bEn
      sta := w.getLsbD s.cfg.bits.bSta
      sto := w.getLsbD s.cfg.bits.bSto
      ea := w.getLsbD s.cfg.bits.bEa
      flag := flagAfterCtrlWrite s.cfg.bits w s.flag }

/-- `MemRead(IO:CTRL, 1)` (R73), as the bits of the byte returned; the read draws the unnamed bits and has no other
effect. SEQ uses bit B_INT only, which is what the event records. -/
def readCtrl (s : State) : (Fin 8 → Bool) × State :=
  (ctrlReadBit s (Config.freeByte s.draws),
    logEvent (.poll (ctrlReadBit s (Config.freeByte s.draws) s.cfg.bits.bInt)) { s with draws := s.draws + 1 })

/-- `MemRead(IO:STAT, 1)` (R74): the value of STAT, or a drawn byte while PERIPH has never written it (log 4). -/
def readStat (s : State) : Byte × State :=
  if s.statWritten then (s.stat, logEvent (.ioRead .stat s.stat) s)
  else
    (Config.freeByte s.draws,
      logEvent (.ioRead .stat (Config.freeByte s.draws)) { s with draws := s.draws + 1 })

/-- `MemWrite(IO:DATA, 1, v)` (R75); it triggers nothing. -/
def writeData (v : Byte) (s : State) : State := logEvent (.ioWrite .data v) { s with data := v }

/-- `MemRead(IO:DATA, 1)` (R75). -/
def readData (s : State) : Byte × State := (s.data, logEvent (.ioRead .data s.data) s)

/-- `MemWrite(IO:DIV, 1, v)` (R76). -/
def writeDiv (v : Byte) (s : State) : State := logEvent (.ioWrite .div v) { s with div := v }

/-- `MemWrite(IO:PULLUP, 1, p)` (R76): PU takes `p[0]` (log 21). -/
def writePullup (p : Byte) (s : State) : State := logEvent (.ioWrite .pullup p) { s with pu := p.getLsbD 0 }

/-! ## The accesses of the phases (the table of R45) -/

/-- A phase that writes CTRL with an active control word and loads POLL (R45: A_START, A_ADDR_TRIG, T_TRIG, R_TRIG,
S_TRIG; R160's `x[POLL] <- POLL_LIMIT`). -/
def doTrigger (p : Phase) (w : Byte) (s : State) : State :=
  let s := writeCtrl w (enter p s)
  { s with poll := s.cfg.pollLimit }

/-- One poll of WAIT (R160): read CTRL, count POLL down, answer bit B_INT of the byte read. -/
def doPoll (p : Phase) (s : State) : Bool × State :=
  let r := readCtrl (enter p s)
  (r.1 r.2.cfg.bits.bInt, { r.2 with poll := r.2.poll - 1 })

/-- A phase that reads STAT into ST, masked (R44, R127). -/
def doStatus (p : Phase) (s : State) : State :=
  let r := readStat (enter p s)
  { r.2 with st := maskStatus r.2.cfg r.1 }

/-- A phase that writes DATA. -/
def doWriteData (p : Phase) (v : Byte) (s : State) : State := writeData v (enter p s)

/-- T_FETCH (R221): `x[TXB] <- MemRead(BUF:x[IDX], 1)`; none where the byte holds no value. -/
def doFetch (s : State) : Option State :=
  let s := enter .tFetch s
  match Memory.read s.buf s.idx.toNat with
  | some v => some (logEvent (.bufRead s.idx.toNat v) { s with txb := v })
  | none => none

/-- R_DATA (R231): `x[RXB] <- MemRead(IO:DATA, 1)`. -/
def doReceive (s : State) : State :=
  let r := readData (enter .rData s)
  { r.2 with rxb := r.1 }

/-- R_STORE (R231): `MemWrite(BUF:x[IDX], 1, x[RXB])`, then `x[IDX] <- x[IDX] + 1`. -/
def doStore (s : State) : State :=
  let s := enter .rStore s
  logEvent (.bufWrite s.idx.toNat s.rxb)
    { s with buf := Memory.write s.buf s.idx.toNat s.rxb, idx := s.idx + 1 }

/-- CFG_DIV (spec/41_configure.md R190, R191 b): `d <- DIVISOR(x[KHZ])`, a drawn byte where that is "unspecified";
`MemWrite(IO:DIV, 1, d)`. -/
def doConfigDiv (s : State) : State :=
  let s := enter .cfgDiv s
  match divisor s.cfg.divisor s.khz with
  | some d => writeDiv d s
  | none => writeDiv (Config.freeByte s.draws) { s with draws := s.draws + 1 }

/-- CFG_PU (R190): `MemWrite(IO:PULLUP, 1, zext_8(x[PUEN]))`. -/
def doConfigPullup (s : State) : State :=
  let s := enter .cfgPu s
  writePullup (zextBit s.puen) s

/-- CFG_EN (R190): `MemWrite(IO:CTRL, 1, CW_ENABLE)`. -/
def doConfigEnable (s : State) : State :=
  let s := enter .cfgEn s
  writeCtrl s.cfg.cw.enable s

/-- X_CTRL (spec/44_stop_reset.md R255): `MemWrite(IO:CTRL, 1, CW_RESET)`. -/
def doResetCtrl (s : State) : State :=
  let s := enter .xCtrl s
  writeCtrl s.cfg.cw.reset s

/-! ## The end of a command, normal or early -/

/-- `finish(code)` (R14): RESULT takes the code and PH goes to IDLE. This is also what stands in place of taking an
exception (R298): an early end with a non-zero code saves nothing and switches nothing, and there is no return from it
(R300). -/
def finish (code : Byte) (s : State) : State :=
  logEvent (.finished (some code)) { s with result := code, resultValid := true, ph := .idle }

/-- `finish()` (R14): PH goes to IDLE and RESULT is untouched. -/
def finishQuiet (s : State) : State := logEvent (.finished none) { s with ph := .idle }

/-! ## Acceptance -/

/-- The state in which a command has been accepted (R112): its latches are loaded and the word is an event of port CMD. -/
def accepted (i : Instr) (s : State) : State := logEvent (.issued (encode i)) (loadLatches i s)

/-- Acceptance of a command (R112, R304): Busy is tested before Illegal; then OPC and the latches of the command's format
are loaded. It makes no access. -/
def accept (i : Instr) (s : State) : Host.Outcome State Fault Refusal :=
  if s.ph ≠ .idle then .refused .busy
  else if !i.wf then .refused (.illegal .zeroClock)
  else .next (accepted i s)

/-- Go on with the next state of an outcome. -/
def thenDo (o : Host.Outcome State Fault Refusal) (k : State → Host.Outcome State Fault Refusal) :
    Host.Outcome State Fault Refusal :=
  match o with
  | .next s => k s
  | .fault f => .fault f
  | .refused r => .refused r

end Sys2Proof.Machine
end

