-- ==== Sys2Proof/Machine/MicroSequences.lean ====
section
/-! DEFINITION. The micro-sequences shared by the commands (spec/40_micro_sequences.md): WAIT, ADDRESS, TXBYTE, STOPSEQ. Each
answers its value with the state it leaves. -/

namespace Sys2Proof.Machine

/-- What WAIT returns (R160). -/
inductive WaitEnd where
  | ok
  | timeout
  deriving DecidableEq, Repr

/-- The loop of WAIT (R160): `n` is the value of POLL. At most `n` reads of CTRL; the one that sees B_INT = 1 ends the
wait with `ok`, whichever it is. -/
def waitLoop (p : Phase) : Nat → State → WaitEnd × State
  | 0, s => (.timeout, s)
  | n + 1, s =>
    let r := doPoll p s
    if r.1 then (.ok, r.2) else waitLoop p n r.2

/-- WAIT (R160), called right after a trigger, which has loaded POLL (R161). -/
def wait (p : Phase) (s : State) : WaitEnd × State := waitLoop p s.poll.toNat s

/-- One attempt of ADDRESS (R165) up to its address status check: `some code` where it has already failed, `none` where
ST holds the status after the address byte. -/
def addressAttempt (dev : BitVec 7) (dir : Dir) (c : AddrCodes) (s : State) : Option Byte × State :=
  let w1 := wait .aStartWait (doTrigger .aStart s.cfg.cw.start s)
  match w1.1 with
  | .timeout => (some c.startTimeout, w1.2)
  | .ok =>
    let s1 := doStatus .aStartStat w1.2
    if !isStartStatus s1.cfg.status s1.st then (some c.startStatus, s1)
    else
      let s2 := doWriteData .aAddrData (addrByte dev dir) s1
      let w2 := wait .aAddrWait (doTrigger .aAddrTrig s2.cfg.cw.xfer s2)
      match w2.1 with
      | .timeout => (some c.addrTimeout, w2.2)
      | .ok => (none, doStatus .aAddrStat w2.2)

/-- The retry loop of ADDRESS (R165, R166): `n` is the value of RETRY. Only `NACK(dir)` is retried. -/
def addressLoop (dev : BitVec 7) (dir : Dir) (c : AddrCodes) : Nat → State → Byte × State
  | n, s =>
    let r := addressAttempt dev dir c s
    match r.1 with
    | some code => (code, r.2)
    | none =>
      let verdict : Byte × State :=
        if r.2.st ≠ ackOf r.2.cfg.status dir then (c.addrStatus, r.2) else (0, r.2)
      match n with
      | 0 => verdict
      | m + 1 =>
        if r.2.st = nackOf r.2.cfg.status dir then
          addressLoop dev dir c m { r.2 with retry := r.2.retry - 1 }
        else verdict

/-- ADDRESS (R165): `x[DIR] <- dir`, `x[RETRY] <- ADDR_RETRIES`, then up to `ADDR_RETRIES + 1` attempts. -/
def address (dev : BitVec 7) (dir : Dir) (c : AddrCodes) (s : State) : Byte × State :=
  addressLoop dev dir c s.cfg.addrRetries.toNat { s with dir := dir, retry := s.cfg.addrRetries }

/-- TXBYTE (R170). -/
def txByte (v : Byte) (c : TxCodes) (s : State) : Byte × State :=
  let s1 := doWriteData .tData v s
  let w := wait .tWait (doTrigger .tTrig s1.cfg.cw.xfer s1)
  match w.1 with
  | .timeout => (c.timeout, w.2)
  | .ok =>
    let s2 := doStatus .tStat w.2
    if s2.st ≠ s2.cfg.status.txdAck then (c.status, s2) else (0, s2)

/-- STOPSEQ (R180). -/
def stopSeq (s : State) : WaitEnd × State := wait .sWait (doTrigger .sTrig s.cfg.cw.stop s)

end Sys2Proof.Machine
end

