-- ==== Sys2Proof/Machine/BeginSend.lean ====
section
/-! DEFINITION. BEGIN and SEND (spec/42_begin_send.md R200, R201, R210, R211). -/

namespace Sys2Proof.Machine

/-- The micro-sequence of BEGIN (R200): ADDRESS in the write direction with BEGIN's four codes; no stop. -/
def runBegin (s : State) : State :=
  let r := address s.dev .write s.cfg.codes.bt { s with seg := .bt }
  finish r.1 r.2

/-- BEGIN dev (R200). -/
def execBegin (dev : BitVec 7) (s : State) : Host.Outcome State Fault Refusal :=
  thenDo (accept (.beginTrans dev) s) fun s => .next (runBegin s)

/-- The micro-sequence of SEND (R210): TXBYTE of VAL with SEND's two codes; no stop. -/
def runSend (s : State) : State :=
  let r := txByte s.val s.cfg.codes.sb { s with seg := .sb }
  finish r.1 r.2

/-- SEND val (R210). -/
def execSend (val : Byte) (s : State) : Host.Outcome State Fault Refusal :=
  thenDo (accept (.send val) s) fun s => .next (runSend s)

end Sys2Proof.Machine
end

