-- ==== Sys2Proof/Machine/BlockTransfer.lean ====
section
/-! DEFINITION. WRBLK and RDBLK (spec/43_block_transfers.md R220 to R224, R230 to R234). -/

namespace Sys2Proof.Machine

/-- How the micro-sequence of WRBLK ends: with a code, or at a byte of BUF that holds no value. -/
inductive BlockEnd where
  | code (c : Byte)
  | noValue (i : Nat)
  deriving DecidableEq, Repr

/-- The data loop of WRBLK (R220, R221): `n` is `LEN - IDX`. -/
def writeLoop : Nat → State → BlockEnd × State
  | 0, s => (.code 0, s)
  | n + 1, s =>
    match doFetch s with
    | none => (.noValue s.idx.toNat, s)
    | some s1 =>
      let r := txByte s1.txb s1.cfg.codes.wbData s1
      if r.1 ≠ 0 then (.code r.1, r.2) else writeLoop n { r.2 with idx := r.2.idx + 1 }

/-- The micro-sequence of WRBLK (R220) up to its end; it issues no stop (R222). -/
def runWrblk (s : State) : BlockEnd × State :=
  let r1 := address s.dev .write s.cfg.codes.wb { s with seg := .wbAddr }
  if r1.1 ≠ 0 then (.code r1.1, r1.2)
  else
    let r2 := txByte r1.2.rega r1.2.cfg.codes.wbReg { r1.2 with seg := .wbReg }
    if r2.1 ≠ 0 then (.code r2.1, r2.2)
    else writeLoop r2.2.len.toNat { r2.2 with idx := 0, seg := .wbData }

/-- The outcome of WRBLK's micro-sequence: `finish(code)`, or the fault of a BUF byte that holds no value (R52, U16). -/
def wrblkOutcome (r : BlockEnd × State) : Host.Outcome State Fault Refusal :=
  match r.1 with
  | .code c => .next (finish c r.2)
  | .noValue i => .fault (.bufNoValue i)

/-- WRBLK dev, reg, len (R220). -/
def execWrblk (dev : BitVec 7) (reg len : Byte) (s : State) : Host.Outcome State Fault Refusal :=
  thenDo (accept (.wrblk dev reg len) s) fun s => wrblkOutcome (runWrblk s)

/-- The receive loop of RDBLK (R231): `n` is `LEN - IDX`. A failure is left in ERR. -/
def readLoop : Nat → State → State
  | 0, s => s
  | n + 1, s =>
    let w := wait .rWait (doTrigger .rTrig (rxWord s) s)
    match w.1 with
    | .timeout => { w.2 with err := w.2.cfg.codes.rbDataTimeout }
    | .ok =>
      let s1 := doStatus .rStat w.2
      if !isRxStatus s1.cfg.status s1.st then { s1 with err := s1.st }
      else readLoop n (doStore (doReceive s1))

/-- The phases of RDBLK before its stop (R230): the first failure is left in ERR and skips the rest. -/
def readPhases (s : State) : State :=
  let r1 := address s.dev .write s.cfg.codes.rbA { s with err := 0, seg := .rbA }
  if r1.1 ≠ 0 then { r1.2 with err := r1.1 }
  else
    let r2 := txByte r1.2.rega r1.2.cfg.codes.rbReg { r1.2 with seg := .rbReg }
    if r2.1 ≠ 0 then { r2.2 with err := r2.1 }
    else
      let r3 := address r2.2.dev .read r2.2.cfg.codes.rbB { r2.2 with seg := .rbB }
      if r3.1 ≠ 0 then { r3.2 with err := r3.1 }
      else readLoop r3.2.len.toNat { r3.2 with idx := 0, seg := .rbData }

/-- The micro-sequence of RDBLK (R230): the phases, the unconditional stop whose outcome is discarded (R232), and
`finish(x[ERR])` (R233). -/
def runRdblk (s : State) : State :=
  let r := stopSeq { readPhases s with seg := .rbStop }
  finish r.2.err r.2

/-- RDBLK dev, reg, len (R230). -/
def execRdblk (dev : BitVec 7) (reg len : Byte) (s : State) : Host.Outcome State Fault Refusal :=
  thenDo (accept (.rdblk dev reg len) s) fun s => .next (runRdblk s)

end Sys2Proof.Machine
end

