-- ==== Sys2Proof/Machine/Configure.lean ====
section
/-! DEFINITION. CONFIGURE (spec/41_configure.md R190, R191). -/

namespace Sys2Proof.Machine

/-- The micro-sequence of CONFIGURE (R190): DIV, then PULLUP, then CTRL, then `finish()`. -/
def runConfigure (s : State) : State :=
  finishQuiet (doConfigEnable (doConfigPullup (doConfigDiv { s with seg := .cfg })))

/-- CONFIGURE khz, pu (R190). -/
def execConfigure (khz : BitVec 16) (pu : Bool) (s : State) : Host.Outcome State Fault Refusal :=
  thenDo (accept (.configure khz pu) s) fun s => .next (runConfigure s)

end Sys2Proof.Machine
end

