-- ==== Sys2Proof/Machine/StopReset.lean ====
section
/-! DEFINITION. STOP and RESET (spec/44_stop_reset.md R250, R251, R255, R256). -/

namespace Sys2Proof.Machine

/-- The micro-sequence of STOP (R250): STOPSEQ, then `E_ST_TIMEOUT` on a timeout and 0 otherwise. -/
def runStop (s : State) : State :=
  let r := stopSeq { s with seg := .st }
  match r.1 with
  | .timeout => finish r.2.cfg.codes.stTimeout r.2
  | .ok => finish 0 r.2

/-- STOP (R250). -/
def execStop (s : State) : Host.Outcome State Fault Refusal :=
  thenDo (accept .stop s) fun s => .next (runStop s)

/-- The micro-sequence of RESET (R255): CTRL takes `CW_RESET`, then `finish()`. -/
def runReset (s : State) : State := finishQuiet (doResetCtrl { s with seg := .rst })

/-- RESET (R255). -/
def execReset (s : State) : Host.Outcome State Fault Refusal :=
  thenDo (accept .reset s) fun s => .next (runReset s)

end Sys2Proof.Machine
end

