-- ==== Sys2Proof/Machine/Dispatch.lean ====
section
/-! DEFINITION. One arm per constructor of Instr (spec/30_encoding.md R113). -/

namespace Sys2Proof.Machine

def exec (i : Instr) (s : State) : Host.Outcome State Fault Refusal :=
  match i with
  | .configure khz pu => Sys2Proof.Machine.execConfigure khz pu s
  | .beginTrans dev => Sys2Proof.Machine.execBegin dev s
  | .send val => Sys2Proof.Machine.execSend val s
  | .wrblk dev reg len => Sys2Proof.Machine.execWrblk dev reg len s
  | .rdblk dev reg len => Sys2Proof.Machine.execRdblk dev reg len s
  | .stop => Sys2Proof.Machine.execStop s
  | .reset => Sys2Proof.Machine.execReset s

end Sys2Proof.Machine
end

