-- ==== Sys2Proof/Machine/Sequencer.lean ====
section
/-! DEFINITION. SEQ access by access: PH and SEG as the block's program counter (spec/10_state.md R45), one register or
buffer access a step (spec/00_scope.md R15). Each phase makes the access of Machine/Ops.lean that the command's
micro-sequence makes there; what stands here is only where PH goes next (R186). -/

namespace Sys2Proof.Machine

/-- The four codes the segment hands to ADDRESS (R200, R220, R230). -/
def addrCodesOf (c : ResultCodes) (g : Seg) : Option AddrCodes :=
  match g with
  | .bt => some c.bt
  | .wbAddr => some c.wb
  | .rbA => some c.rbA
  | .rbB => some c.rbB
  | _ => none

/-- The two codes the segment hands to TXBYTE (R210, R220, R230). -/
def txCodesOf (c : ResultCodes) (g : Seg) : Option TxCodes :=
  match g with
  | .sb => some c.sb
  | .wbReg => some c.wbReg
  | .wbData => some c.wbData
  | .rbReg => some c.rbReg
  | _ => none

/-- The byte the segment hands to TXBYTE (R210, R220, R230). -/
def txByteOf (s : State) : Option Byte :=
  match s.seg with
  | .sb => some s.val
  | .wbReg => some s.rega
  | .wbData => some s.txb
  | .rbReg => some s.rega
  | _ => none

/-- PH and SEG name no position of any command. -/
def noPosition (s : State) : Host.Outcome State Fault Refusal := .fault (.noPosition s.ph s.seg)

/-- The start of ADDRESS (R165). -/
def toAddress (g : Seg) (dir : Dir) (s : State) : State :=
  { s with seg := g, dir := dir, retry := s.cfg.addrRetries, ph := .aStart }

/-- RDBLK's label `fin` (R230). -/
def toFin (s : State) : State := { s with seg := .rbStop, ph := .sTrig }

/-- RDBLK's label `rx` (R231). -/
def toReceive (s : State) : State := if s.idx = s.len then toFin s else { s with ph := .rTrig }

/-- WRBLK's label `data` (R220). -/
def toData (s : State) : State := if s.idx = s.len then finish 0 s else { s with ph := .tFetch }

/-- What the calling command does with ADDRESS's result `r` (R200, R220, R230). -/
def afterAddress (r : Byte) (s : State) : Host.Outcome State Fault Refusal :=
  match s.seg with
  | .bt => .next (finish r s)
  | .wbAddr => .next (if r ≠ 0 then finish r s else { s with seg := .wbReg, ph := .tData })
  | .rbA => .next (if r ≠ 0 then toFin { s with err := r } else { s with seg := .rbReg, ph := .tData })
  | .rbB => .next (if r ≠ 0 then toFin { s with err := r } else toReceive { s with idx := 0, seg := .rbData })
  | _ => noPosition s

/-- What the calling command does with TXBYTE's result `r` (R210, R220, R230). -/
def afterTxByte (r : Byte) (s : State) : Host.Outcome State Fault Refusal :=
  match s.seg with
  | .sb => .next (finish r s)
  | .wbReg => .next (if r ≠ 0 then finish r s else toData { s with idx := 0, seg := .wbData })
  | .wbData => .next (if r ≠ 0 then finish r s else toData { s with idx := s.idx + 1 })
  | .rbReg => .next (if r ≠ 0 then toFin { s with err := r } else toAddress .rbB .read s)
  | _ => noPosition s

/-- What the calling command does with STOPSEQ's result (R250, R232). -/
def afterStop (e : WaitEnd) (s : State) : Host.Outcome State Fault Refusal :=
  match s.seg with
  | .st => .next (finish (match e with | .timeout => s.cfg.codes.stTimeout | .ok => 0) s)
  | .rbStop => .next (finish s.err s)
  | _ => noPosition s

/-- After a WAIT that ended `ok` at a wait phase (R160). -/
def afterWaitOk (s : State) : Host.Outcome State Fault Refusal :=
  match s.ph with
  | .aStartWait => .next { s with ph := .aStartStat }
  | .aAddrWait => .next { s with ph := .aAddrStat }
  | .tWait => .next { s with ph := .tStat }
  | .rWait => .next { s with ph := .rStat }
  | .sWait => afterStop .ok s
  | _ => noPosition s

/-- After a WAIT that ended `timeout` at a wait phase (R160, R165, R170, R231, R180). -/
def afterWaitTimeout (s : State) : Host.Outcome State Fault Refusal :=
  match s.ph with
  | .aStartWait =>
    match addrCodesOf s.cfg.codes s.seg with
    | some c => afterAddress c.startTimeout s
    | none => noPosition s
  | .aAddrWait =>
    match addrCodesOf s.cfg.codes s.seg with
    | some c => afterAddress c.addrTimeout s
    | none => noPosition s
  | .tWait =>
    match txCodesOf s.cfg.codes s.seg with
    | some c => afterTxByte c.timeout s
    | none => noPosition s
  | .rWait => .next (toFin { s with err := s.cfg.codes.rbDataTimeout })
  | .sWait => afterStop .timeout s
  | _ => noPosition s

/-- A wait phase (R160): POLL = 0 is a timeout without a read; else one poll, then `ok`, another poll, or `timeout`. -/
def pollStep (p : Phase) (s : State) : Host.Outcome State Fault Refusal :=
  if s.poll = 0 then afterWaitTimeout s
  else
    let r := doPoll p s
    if r.1 then afterWaitOk r.2
    else if r.2.poll = 0 then afterWaitTimeout r.2
    else .next r.2

/-- A_START_STAT (R165). -/
def startStatStep (s : State) : Host.Outcome State Fault Refusal :=
  let s := doStatus .aStartStat s
  match addrCodesOf s.cfg.codes s.seg with
  | some c => if !isStartStatus s.cfg.status s.st then afterAddress c.startStatus s else .next { s with ph := .aAddrData }
  | none => noPosition s

/-- A_ADDR_STAT (R165): the not-acknowledge test with retry comes before the acknowledge test (R297). -/
def addrStatStep (s : State) : Host.Outcome State Fault Refusal :=
  let s := doStatus .aAddrStat s
  match addrCodesOf s.cfg.codes s.seg with
  | some c =>
    if s.st = nackOf s.cfg.status s.dir ∧ s.retry ≠ 0 then .next { s with retry := s.retry - 1, ph := .aStart }
    else if s.st ≠ ackOf s.cfg.status s.dir then afterAddress c.addrStatus s
    else afterAddress 0 s
  | none => noPosition s

/-- T_DATA (R170). -/
def txDataStep (s : State) : Host.Outcome State Fault Refusal :=
  match txByteOf s with
  | some v => .next { doWriteData .tData v s with ph := .tTrig }
  | none => noPosition s

/-- T_STAT (R170). -/
def txStatStep (s : State) : Host.Outcome State Fault Refusal :=
  let s := doStatus .tStat s
  match txCodesOf s.cfg.codes s.seg with
  | some c => if s.st ≠ s.cfg.status.txdAck then afterTxByte c.status s else afterTxByte 0 s
  | none => noPosition s

/-- T_FETCH (R220); a byte of BUF that holds no value is a fault (R52, U16). -/
def fetchStep (s : State) : Host.Outcome State Fault Refusal :=
  match doFetch s with
  | some s' => .next { s' with ph := .tData }
  | none => .fault (.bufNoValue s.idx.toNat)

/-- R_STAT (R231). -/
def rxStatStep (s : State) : Host.Outcome State Fault Refusal :=
  let s := doStatus .rStat s
  .next (if !isRxStatus s.cfg.status s.st then toFin { s with err := s.st } else { s with ph := .rData })

/-- One step of the block with HOST doing nothing: PERIPH may step, then SEQ makes the one access of its phase (R45, R79);
while PH = IDLE SEQ has no step (R78). -/
def seqStep (s : State) : Host.Outcome State Fault Refusal :=
  match s.ph with
  | .idle => .next (periphTurn s)
  | .cfgDiv => .next { doConfigDiv s with ph := .cfgPu }
  | .cfgPu => .next { doConfigPullup s with ph := .cfgEn }
  | .cfgEn => .next (finishQuiet (doConfigEnable s))
  | .aStart => .next { doTrigger .aStart s.cfg.cw.start s with ph := .aStartWait }
  | .aStartWait => pollStep .aStartWait s
  | .aStartStat => startStatStep s
  | .aAddrData => .next { doWriteData .aAddrData (addrByte s.dev s.dir) s with ph := .aAddrTrig }
  | .aAddrTrig => .next { doTrigger .aAddrTrig s.cfg.cw.xfer s with ph := .aAddrWait }
  | .aAddrWait => pollStep .aAddrWait s
  | .aAddrStat => addrStatStep s
  | .tFetch => fetchStep s
  | .tData => txDataStep s
  | .tTrig => .next { doTrigger .tTrig s.cfg.cw.xfer s with ph := .tWait }
  | .tWait => pollStep .tWait s
  | .tStat => txStatStep s
  | .rTrig => .next { doTrigger .rTrig (rxWord s) s with ph := .rWait }
  | .rWait => pollStep .rWait s
  | .rStat => rxStatStep s
  | .rData => .next { doReceive s with ph := .rStore }
  | .rStore => .next (toReceive (doStore s))
  | .sTrig => .next { doTrigger .sTrig s.cfg.cw.stop s with ph := .sWait }
  | .sWait => pollStep .sWait s
  | .xCtrl => .next (finishQuiet (doResetCtrl s))

/-- `pc <- the first phase of the command's micro-sequence` (R112), with the registers that the pseudocode sets before its
first access. -/
def startCommand (i : Instr) (s : State) : State :=
  match i with
  | .configure _ _ => { s with seg := .cfg, ph := .cfgDiv }
  | .beginTrans _ => toAddress .bt .write s
  | .send _ => { s with seg := .sb, ph := .tData }
  | .wrblk _ _ _ => toAddress .wbAddr .write s
  | .rdblk _ _ _ => toAddress .rbA .write { s with err := 0 }
  | .stop => { s with seg := .st, ph := .sTrig }
  | .reset => { s with seg := .rst, ph := .xCtrl }

/-- `n` steps of SEQ and PERIPH alone, ending early where PH = IDLE. -/
def seqRun : Nat → State → Host.Outcome State Fault Refusal
  | 0, s => .next s
  | n + 1, s => if s.ph = .idle then .next s else thenDo (seqStep s) (seqRun n)

end Sys2Proof.Machine
end

