-- ==== Sys2Proof/Machine/HostPort.lean ====
section
/-! DEFINITION. HOST's events on ports CMD and RSP and on its buffer (spec/20_memory.md R71, R78, R85;
spec/60_exceptions.md R304; spec/70_reset_and_hazards.md R331). -/

namespace Sys2Proof.Machine

/-- `issue(W)` (R112, R304): Busy before Illegal, else `k` on the command the word stands for. -/
def hostCommand (w : CmdWord) (k : Instr → State → Host.Outcome State Fault Refusal) (s : State) :
    Host.Outcome State Fault Refusal :=
  if s.ph ≠ .idle then .refused .busy
  else
    match decode w with
    | .error e => .refused (.illegal e)
    | .ok i => k i s

/-- Acceptance alone (R112): the command is latched and PH goes to its first phase. -/
def presentCommand (i : Instr) (s : State) : Host.Outcome State Fault Refusal :=
  thenDo (accept i s) fun s => .next (startCommand i s)

/-- The host writes a byte of its buffer, which it may only while PH = IDLE (R48, R331). -/
def hostBufWrite (i v : Byte) (s : State) : Host.Outcome State Fault Refusal :=
  if s.ph ≠ .idle then .refused .hostNotIdle
  else .next (logEvent (.hostBufWrite i.toNat v) { s with buf := Memory.write s.buf i.toNat v })

/-- The host reads a byte of its buffer (R48, R331); a byte that holds no value faults (R52, U16). -/
def hostBufRead (i : Byte) (s : State) : Host.Outcome State Fault Refusal :=
  if s.ph ≠ .idle then .refused .hostNotIdle
  else
    match Memory.read s.buf i.toNat with
    | some v => .next (logEvent (.hostBufRead i.toNat v) s)
    | none => .fault (.bufNoValue i.toNat)

/-- The host reads RESULT (R46): only while PH = IDLE and after a status-returning command has completed; before that R46
and item U16 make the read a fault, whatever the register holds. -/
def hostResultRead (s : State) : Host.Outcome State Fault Refusal :=
  if s.ph ≠ .idle then .refused .hostNotIdle
  else if s.resultValid then .next (logEvent (.hostResult s.result) s)
  else .fault .resultNoValue

/-- One move of HOST (R71, R78). -/
def hostStep (e : HostEvent) (s : State) : Host.Outcome State Fault Refusal :=
  match e with
  | .wait => seqStep s
  | .issue w => hostCommand w exec s
  | .present w => hostCommand w presentCommand s
  | .bufWrite i v => hostBufWrite i v s
  | .bufRead i => hostBufRead i s
  | .resultRead => hostResultRead s

/-- The word on port CMD that carries the `nbits` bits `w` (R110). -/
def wordOf (nbits w : Nat) : CmdWord := BitVec.ofNat 32 (w % 2 ^ nbits)

end Sys2Proof.Machine
end

