-- ==== Sys2Proof/Machine/Step.lean ====
section
/-! DEFINITION. One step of the machine: HOST's next move is taken from its queue, and where there is none HOST does nothing
(spec/20_memory.md R78, R79; spec/70_reset_and_hazards.md R321: the block executes nothing until the host issues a
command). -/

namespace Sys2Proof.Machine

/-- One step. -/
def step (s : State) : Host.Outcome State Fault Refusal :=
  match s.host with
  | [] => seqStep s
  | e :: rest => hostStep e { s with host := rest }

/-- The state in which HOST's next move is to issue the command word `w` to an idle block (log 14): there is no fetch, a
command is presented on port CMD (R70, R321). -/
def State.withFetchWord (s : State) (nbits w : Nat) : State :=
  { s with host := .issue (wordOf nbits w) :: s.host, ph := .idle }

end Sys2Proof.Machine
end

