-- ==== Sys2Proof/Machine/Script.lean ====
section
/-! DEFINITION. Environment scripts (spec/20_memory.md R84): the answers PERIPH gives to a WAIT, as its moves at the moments it
is enabled; the answers that lead to each failing step of a command; and functions that read a list of port events. -/

namespace Sys2Proof.Machine

/-- `D(k, s, d)` (R84): read number `k` of the WAIT is the first to see FLAG = 1; then STAT = `s` and DATA = `d`. -/
structure Completion where
  k : Nat
  stat : Byte
  data : Byte
  deriving DecidableEq, Repr

/-- PERIPH's moves during a WAIT that gets the answer `D(k, s, d)`. -/
def Completion.moves (c : Completion) : List PeriphMove :=
  List.replicate (c.k - 1) .stay ++ [.complete c.stat c.data]

/-- `1 <= k <= POLL_LIMIT` (R84). -/
def Completion.fits (limit : Nat) (c : Completion) : Bool := decide (1 ≤ c.k) && decide (c.k ≤ limit)

/-- PERIPH's moves during a WAIT that gets the answer `T` (R84): FLAG stays 0 for all `limit` = POLL_LIMIT reads. -/
def timeoutMoves (limit : Nat) : List PeriphMove := List.replicate limit .stay

/-- PERIPH's moves during one attempt of ADDRESS: the answer to the start and the answer to the address byte (R165). -/
def attemptMoves (a : Completion × Completion) : List PeriphMove := a.1.moves ++ a.2.moves

/-- The polls of a WAIT that ends at read number `k`, newest first. -/
def pollsDone (k : Nat) : List PortEvent := .poll true :: List.replicate (k - 1) (.poll false)

/-- The polls of a WAIT that times out after `limit` reads. -/
def pollsTimeout (limit : Nat) : List PortEvent := List.replicate limit (.poll false)

/-! ## Answers to a command's WAITs (R84), and the failing step they lead to (spec/60_exceptions.md R290) -/

/-- The answer to one WAIT (R84): `T`, or `D(k, s, d)`. -/
inductive Answer where
  | timeout
  | done (c : Completion)
  deriving DecidableEq, Repr

/-- PERIPH's moves during a WAIT that gets the answer. -/
def Answer.moves (limit : Nat) : Answer → List PeriphMove
  | .timeout => timeoutMoves limit
  | .done c => c.moves

/-- The answer is one that R84 admits. -/
def Answer.fits (limit : Nat) : Answer → Bool
  | .timeout => true
  | .done c => c.fits limit

/-- How an ADDRESS ends: acknowledged, or at one of its four failing steps (R290 rows 1 to 4, 8 to 11, 16 to 19, 22 to 25). -/
inductive AddrEnd where
  | acked
  | startTimeout
  | startStatus
  | addrTimeout
  | addrStatus
  deriving DecidableEq, Repr

/-- The result of an ADDRESS that ends so, with the command's four codes (R165). -/
def addrEndCode (c : AddrCodes) : AddrEnd → Byte
  | .acked => 0
  | .startTimeout => c.startTimeout
  | .startStatus => c.startStatus
  | .addrTimeout => c.addrTimeout
  | .addrStatus => c.addrStatus

/-- The completion of a start WAIT shows `S_START` or `S_REP_START`. -/
def startsWell (c : Config) (a : Completion) : Bool := isStartStatus c.status (a.stat &&& c.statusMask)

/-- The answers of the attempt at which ADDRESS ends so, with `retries` retries left (R290): `NACK(dir)` ends it only where
none is left. -/
def lastAttempt (c : Config) (dir : Dir) (retries : Nat) : AddrEnd → List Answer → Bool
  | .startTimeout, [.timeout] => true
  | .startStatus, [.done a] => !startsWell c a
  | .addrTimeout, [.done a, .timeout] => startsWell c a
  | .addrStatus, [.done a, .done b] =>
    startsWell c a && b.stat &&& c.statusMask != ackOf c.status dir &&
      (b.stat &&& c.statusMask != nackOf c.status dir || retries == 0)
  | .acked, [.done a, .done b] => startsWell c a && b.stat &&& c.statusMask == ackOf c.status dir
  | _, _ => false

/-- The answers of one ADDRESS that ends as `e`: not-acknowledged attempts `nacks`, at most ADDR_RETRIES of them, and then the
attempt `last` (R165, R166 b, c, d). -/
def addressAnswers (c : Config) (dir : Dir) (e : AddrEnd) (nacks : List (Completion × Completion))
    (last : List Answer) : Bool :=
  decide (nacks.length ≤ c.addrRetries.toNat) &&
    nacks.all (fun a => a.1.fits c.pollLimit.toNat && a.2.fits c.pollLimit.toNat && startsWell c a.1 &&
      a.2.stat &&& c.statusMask == nackOf c.status dir) &&
    last.all (Answer.fits c.pollLimit.toNat) && lastAttempt c dir (c.addrRetries.toNat - nacks.length) e last

/-- PERIPH's moves during that ADDRESS. -/
def addressMoves (c : Config) (nacks : List (Completion × Completion)) (last : List Answer) : List PeriphMove :=
  nacks.flatMap attemptMoves ++ last.flatMap (Answer.moves c.pollLimit.toNat)

/-- The words that ADDRESS writes to CTRL under those answers, oldest first (R165): the last attempt's second word only where
its start went well, that is where it has a second answer. -/
def addressWords (c : Config) (nacks : List (Completion × Completion)) (last : List Answer) : List Byte :=
  (List.replicate nacks.length [c.cw.start, c.cw.xfer]).flatten ++ c.cw.start :: List.replicate (last.length - 1) c.cw.xfer

/-- The bytes that ADDRESS writes to DATA under those answers. -/
def addressBytes (dev : BitVec 7) (dir : Dir) (nacks : List (Completion × Completion)) (last : List Answer) :
    List Byte :=
  List.replicate (nacks.length + (last.length - 1)) (addrByte dev dir)

/-- The answer acknowledges the byte that TXBYTE sent (R170). -/
def txAcked (c : Config) : Answer → Bool
  | .timeout => false
  | .done a => a.stat &&& c.statusMask == c.status.txdAck

/-- TXBYTE's code for an answer that does not acknowledge (R170; R290 rows 5, 6, 12 to 15, 20, 21). -/
def txFailCode (c : TxCodes) : Answer → Byte
  | .timeout => c.timeout
  | .done _ => c.status

/-- The answer is a received byte of accepted status (R231). -/
def rxAccepted (c : Config) (a : Completion) : Bool :=
  a.fits c.pollLimit.toNat && isRxStatus c.status (a.stat &&& c.statusMask)

/-- The words of the first `n` receive requests of an RDBLK of `len` bytes, oldest first (R231). -/
def requestWords (c : Config) (len n : Nat) : List Byte :=
  (List.range n).map fun i => if i + 1 < len then c.cw.rxAck else c.cw.rxNack

/-! ## Reading a list of port events -/

/-- The words written to CTRL. -/
def ctrlWords (es : List PortEvent) : List Byte :=
  es.filterMap fun e => match e with
    | .ioWrite .ctrl w => some w
    | _ => none

/-- The bytes written to DATA. -/
def dataBytes (es : List PortEvent) : List Byte :=
  es.filterMap fun e => match e with
    | .ioWrite .data v => some v
    | _ => none

/-- The bytes read from DATA. -/
def dataReads (es : List PortEvent) : List Byte :=
  es.filterMap fun e => match e with
    | .ioRead .data v => some v
    | _ => none

/-- SEQ's reads of BUF: index and byte. -/
def bufReads (es : List PortEvent) : List (Nat × Byte) :=
  es.filterMap fun e => match e with
    | .bufRead i v => some (i, v)
    | _ => none

/-- SEQ's writes of BUF: index and byte. -/
def bufWrites (es : List PortEvent) : List (Nat × Byte) :=
  es.filterMap fun e => match e with
    | .bufWrite i v => some (i, v)
    | _ => none

/-- The accesses of the IO space (port IO of R71). -/
def ioEvents (es : List PortEvent) : List PortEvent :=
  es.filter fun e => match e with
    | .ioWrite _ _ => true
    | .poll _ => true
    | .ioRead _ _ => true
    | _ => false

/-- The ends of commands (`finish`, R14) among the events. -/
def finishes (es : List PortEvent) : List (Option Byte) :=
  es.filterMap fun e => match e with
    | .finished c => some c
    | _ => none

/-- The status of the last completed command that returned one (R46), with the newest event first. -/
def lastStatus (es : List PortEvent) : Option Byte := ((finishes es).filterMap id).head?

/-- How many polls the events hold. -/
def pollCount (es : List PortEvent) : Nat := es.countP fun e => match e with
  | .poll _ => true
  | _ => false

/-- How many writes of the IO space the events hold. -/
def ioWriteCount (es : List PortEvent) : Nat := es.countP fun e => match e with
  | .ioWrite _ _ => true
  | _ => false

end Sys2Proof.Machine
end

