-- ==== Sys2Proof/Safety.lean ====
section
/-! DEFINITION. What counts as a good state and a safe run, and the words the statements use: the invariant every step
keeps, what a command leaves alone, when the buffer is ready for WRBLK (spec/70_reset_and_hazards.md R325), the registers
that are dead while the block is idle (spec/10_state.md R47). -/

namespace Sys2Proof.Machine

/-- The command a segment belongs to, by opcode (R45, R113). -/
def Seg.opcode : Seg → BitVec 4
  | .cfg => 1
  | .bt => 2
  | .sb => 3
  | .wbAddr => 4
  | .wbReg => 4
  | .wbData => 4
  | .rbA => 5
  | .rbReg => 5
  | .rbB => 5
  | .rbData => 5
  | .rbStop => 5
  | .st => 6
  | .rst => 7

/-- PH, SEG and the loop registers name a position inside a micro-sequence (R41 to R45): the segment has that phase; IDX is
below LEN in the data loops; POLL is not 0 and at most POLL_LIMIT in a wait; RETRY is at most ADDR_RETRIES in an address
phase; the direction is the segment's (R125). -/
def State.position (s : State) : Bool :=
  match s.ph with
  | .idle => true
  | .cfgDiv => s.seg == .cfg
  | .cfgPu => s.seg == .cfg
  | .cfgEn => s.seg == .cfg
  | .aStart => addressing s
  | .aStartWait => addressing s && polling s
  | .aStartStat => addressing s
  | .aAddrData => addressing s
  | .aAddrTrig => addressing s
  | .aAddrWait => addressing s && polling s
  | .aAddrStat => addressing s
  | .tFetch => s.seg == .wbData && decide (s.idx.toNat < s.len.toNat)
  | .tData => sending s
  | .tTrig => sending s
  | .tWait => sending s && polling s
  | .tStat => sending s
  | .rTrig => receiving s
  | .rWait => receiving s && polling s
  | .rStat => receiving s
  | .rData => receiving s
  | .rStore => receiving s
  | .sTrig => stopping s
  | .sWait => stopping s && polling s
  | .xCtrl => s.seg == .rst
where
  addressing (s : State) : Bool :=
    (s.seg == .bt || s.seg == .wbAddr || s.seg == .rbA || s.seg == .rbB) &&
      decide (s.retry.toNat ≤ s.cfg.addrRetries.toNat) &&
      s.dir == (if s.seg = .rbB then .read else .write)
  sending (s : State) : Bool :=
    s.seg == .sb || s.seg == .wbReg || s.seg == .rbReg || (s.seg == .wbData && decide (s.idx.toNat < s.len.toNat))
  receiving (s : State) : Bool := s.seg == .rbData && decide (s.idx.toNat < s.len.toNat)
  stopping (s : State) : Bool := s.seg == .st || s.seg == .rbStop
  polling (s : State) : Bool := decide (0 < s.poll.toNat) && decide (s.poll.toNat ≤ s.cfg.pollLimit.toNat)

/-- The invariant of the block. -/
structure State.Inv (s : State) : Prop where
  /-- The parameters meet the constraints of R7 to R11. -/
  config : s.cfg.wf = true
  /-- BUF is in its canonical form. -/
  buffer : Memory.wf s.buf
  /-- FLAG is 0 while the peripheral is disabled (R82). -/
  flagEnabled : s.flag = true → s.en = true
  /-- FLAG = 1 says that PERIPH has written STAT (R74, R80). -/
  flagStat : s.flag = true → s.statWritten = true
  /-- PH, SEG and the loop registers name a position (R45). -/
  place : s.position = true
  /-- A busy block runs the command that OPC names (R45). -/
  opcode : s.ph ≠ .idle → s.opc = s.seg.opcode

/-- R46 over the port events so far: RESULT may be read exactly if a status-returning command has completed, and it then holds
the status of the last one. -/
def State.ResultHistory (s : State) : Prop :=
  s.resultValid = (lastStatus s.trace).isSome ∧ ∀ c, lastStatus s.trace = some c → s.result = c

/-- BUF reads the same at every index. -/
def sameBuf (s t : State) : Prop := ∀ a, Memory.read t.buf a = Memory.read s.buf a

/-- DIV, PU, the parameters and HOST's coming moves are unchanged. -/
def sameSetup (s t : State) : Prop := t.div = s.div ∧ t.pu = s.pu ∧ t.cfg = s.cfg ∧ t.host = s.host

/-- The fields of CTRL that a write of `w` stores (R72). -/
def ctrlHolds (w : Byte) (t : State) : Prop :=
  t.en = w.getLsbD t.cfg.bits.bEn ∧ t.sta = w.getLsbD t.cfg.bits.bSta ∧ t.sto = w.getLsbD t.cfg.bits.bSto ∧
    t.ea = w.getLsbD t.cfg.bits.bEa

/-- `BUF[0..n-1]` all hold a value, as R325 asks before a WRBLK. -/
def bufReady (s : State) (n : Nat) : Prop := ∀ i < n, (Memory.read s.buf i).isSome = true

/-- An outcome is not a fault. -/
def safeOutcome (o : Host.Outcome State Fault Refusal) : Prop := ∀ f, o ≠ .fault f

/-- R121: a word is legal iff its OP is 0x1 to 0x7, every must-be-zero bit of its format (R111) is 0, and for OP 0x1
KHZ is not 0. -/
def legalWord (w : CmdWord) : Prop :=
  1 ≤ (w.extractLsb' 28 4).toNat ∧ (w.extractLsb' 28 4).toNat ≤ 7 ∧ w.extractLsb' 24 4 = 0 ∧
    match (w.extractLsb' 28 4).toNat with
    | 1 => w.extractLsb' 17 7 = 0 ∧ w.extractLsb' 0 16 ≠ 0
    | 2 => w.getLsbD 23 = false ∧ w.extractLsb' 0 16 = 0
    | 3 => w.extractLsb' 8 16 = 0
    | 4 => w.getLsbD 23 = false
    | 5 => w.getLsbD 23 = false
    | _ => w.extractLsb' 0 24 = 0

/-- `s` with every register that is dead while the block is idle (R47), and STAT and DATA, taken from `d`. -/
def withDead (s d : State) : State :=
  { s with
    opc := d.opc, dev := d.dev, rega := d.rega, len := d.len, val := d.val, khz := d.khz, puen := d.puen
    idx := d.idx, retry := d.retry, poll := d.poll, st := d.st, err := d.err, dir := d.dir, rxb := d.rxb, txb := d.txb
    seg := d.seg, stat := d.stat, data := d.data }

/-- SEND of each byte in turn, cut at the first non-zero result (R223). -/
def sendEach : List Byte → State → Host.Outcome State Fault Refusal
  | [], s => .next s
  | b :: bs, s => thenDo (exec (.send b) s) fun t => if t.result ≠ 0 then .next t else sendEach bs t

/-- `BEGIN dev; SEND b; ...`, cut at the first non-zero result (R223). -/
def beginThenSends (dev : BitVec 7) (bs : List Byte) (s : State) : Host.Outcome State Fault Refusal :=
  thenDo (exec (.beginTrans dev) s) fun t => if t.result ≠ 0 then .next t else sendEach bs t

/-- The most WAITs a command makes (R340), with ADDR_RETRIES a parameter. -/
def maxWaits (c : Config) : Instr → Nat
  | .configure _ _ => 0
  | .beginTrans _ => 2 * (c.addrRetries.toNat + 1)
  | .send _ => 1
  | .wrblk _ _ len => 2 * (c.addrRetries.toNat + 1) + 1 + len.toNat
  | .rdblk _ _ len => 4 * (c.addrRetries.toNat + 1) + 2 + len.toNat
  | .stop => 1
  | .reset => 0

/-- The most writes of the IO space a command makes (R340), with ADDR_RETRIES a parameter. -/
def maxIoWrites (c : Config) : Instr → Nat
  | .configure _ _ => 3
  | .beginTrans _ => 3 * (c.addrRetries.toNat + 1)
  | .send _ => 2
  | .wrblk _ _ len => 3 * (c.addrRetries.toNat + 1) + 2 + 2 * len.toNat
  | .rdblk _ _ len => 6 * (c.addrRetries.toNat + 1) + 2 + len.toNat + 1
  | .stop => 1
  | .reset => 1

end Sys2Proof.Machine
end

