-- ==== Sys2Proof/Certificates/Slice0/Obligations.lean ====
section
/-! DEFINITION. The statements for the provers. Each docstring names the rule of spec/ it formalises. `issued` events stand
last in a list of new port events, since the newest event comes first. -/

open Sys2Proof
open Sys2Proof.Machine

/-! ## Encoding -/

/-- R110 to R121: the decoder reads every legal command back from its word, with every operand. -/
def Obligations.DecodeEncode : Prop := ∀ i : Instr, i.wf = true → decode (encode i) = .ok i

/-- R110 to R121: a word the decoder accepts is the one word of the command it answers, and the command is legal. -/
def Obligations.EncodeDecode : Prop :=
  ∀ (w : CmdWord) (i : Instr), decode w = .ok i → encode i = w ∧ i.wf = true

/-- R115 to R120: every operand is the bit slice of the word that its format names. -/
def Obligations.OperandSlices : Prop :=
  ∀ (w : CmdWord) (i : Instr), decode w = .ok i →
    i.opcode = w.extractLsb' 28 4 ∧
    match i with
    | .configure khz pu => khz = w.extractLsb' 0 16 ∧ pu = w.getLsbD 16
    | .beginTrans dev => dev = w.extractLsb' 16 7
    | .send val => val = w.extractLsb' 0 8
    | .wrblk dev reg len => dev = w.extractLsb' 16 7 ∧ reg = w.extractLsb' 8 8 ∧ len = w.extractLsb' 0 8
    | .rdblk dev reg len => dev = w.extractLsb' 16 7 ∧ reg = w.extractLsb' 8 8 ∧ len = w.extractLsb' 0 8
    | .stop => True
    | .reset => True

/-- R121: a word is decoded exactly if it is legal; an idle block refuses every other word as illegal. -/
def Obligations.IllegalRefused : Prop :=
  ∀ (w : CmdWord) (s : State) (rest : List HostEvent), s.ph = .idle → s.host = .issue w :: rest →
    (legalWord w ↔ ∃ i, decode w = .ok i) ∧ (¬ legalWord w → ∃ why, step s = .refused (.illegal why))

/-- The words that R115 to R119 give as examples decode to the commands they name. -/
def Obligations.DecodeExamples : Prop :=
  decode 0x10010064 = .ok (.configure 100 true) ∧ decode 0x10000190 = .ok (.configure 400 false) ∧
    decode 0x20500000 = .ok (.beginTrans 0x50) ∧ decode 0x30000010 = .ok (.send 0x10) ∧
    decode 0x40501002 = .ok (.wrblk 0x50 0x10 2) ∧ decode 0x5050100E = .ok (.rdblk 0x50 0x10 14) ∧
    decode 0x60000000 = .ok .stop ∧ decode 0x70000000 = .ok .reset

/-- R125: bits 7:1 of the address-phase byte are the device address and bit 0 is the direction (0 = write, 1 = read). -/
def Obligations.AddressByteBits : Prop :=
  ∀ dev : BitVec 7,
    (addrByte dev .write).extractLsb' 1 7 = dev ∧ (addrByte dev .write).getLsbD 0 = false ∧
    (addrByte dev .read).extractLsb' 1 7 = dev ∧ (addrByte dev .read).getLsbD 0 = true

/-! ## Register accesses and PERIPH -/

/-- R72: a write of CTRL stores the four fields, clears FLAG if INT = 1 or EN = 0 and keeps it otherwise; a word with
INT = 1 and EN = 1 hands the phase to PERIPH; nothing else changes but the port events. -/
def Obligations.CtrlWrite : Prop :=
  ∀ (w : Byte) (s : State),
    ctrlHolds w (writeCtrl w s) ∧
    (w.getLsbD s.cfg.bits.bInt = true ∨ w.getLsbD s.cfg.bits.bEn = false → (writeCtrl w s).flag = false) ∧
    (w.getLsbD s.cfg.bits.bInt = false → w.getLsbD s.cfg.bits.bEn = true → (writeCtrl w s).flag = s.flag) ∧
    (triggersPhase s.cfg.bits w = true → periphEnabled (writeCtrl w s) = true) ∧
    writeCtrl w s = { s with
      en := (writeCtrl w s).en, sta := (writeCtrl w s).sta, sto := (writeCtrl w s).sto, ea := (writeCtrl w s).ea
      flag := (writeCtrl w s).flag, trace := .ioWrite .ctrl w :: s.trace }

/-- R73: a read of CTRL returns FLAG and the four fields in their positions and a drawn bit in every other position, and
has no effect but to count the draw and to be a port event. -/
def Obligations.CtrlRead : Prop :=
  ∀ s : State, s.cfg.bits.wf = true →
    (readCtrl s).1 s.cfg.bits.bInt = s.flag ∧ (readCtrl s).1 s.cfg.bits.bEn = s.en ∧
    (readCtrl s).1 s.cfg.bits.bSta = s.sta ∧ (readCtrl s).1 s.cfg.bits.bSto = s.sto ∧
    (readCtrl s).1 s.cfg.bits.bEa = s.ea ∧
    (∀ n : Fin 8, n ∉ [s.cfg.bits.bEn, s.cfg.bits.bSta, s.cfg.bits.bSto, s.cfg.bits.bInt, s.cfg.bits.bEa] →
      (readCtrl s).1 n = (Config.freeByte s.draws).getLsbD n) ∧
    (readCtrl s).2 = { s with draws := s.draws + 1, trace := .poll s.flag :: s.trace }

/-- R79 to R82: PERIPH has no step while FLAG = 1 or EN = 0; while it is enabled every STAT and DATA is possible, and so
is no step at all; its step changes FLAG, STAT and DATA only. That its moves stand in a script, and after it are free moves
at a counter, is the model's choice (log 7); statWritten is the model's record that STAT has been written (log 4). -/
def Obligations.PeriphStepRule : Prop :=
  (∀ s : State, s.flag = true ∨ s.en = false → periphTurn s = s) ∧
  (∀ (s : State) (x y : Byte) (rest : List PeriphMove), s.flag = false → s.en = true →
    s.script = .complete x y :: rest →
    periphTurn s = { s with script := rest, flag := true, stat := x, data := y, statWritten := true }) ∧
  (∀ (s : State) (rest : List PeriphMove), s.flag = false → s.en = true → s.script = .stay :: rest →
    periphTurn s = { s with script := rest }) ∧
  (∀ s : State, s.flag = false → s.en = true → s.script = [] →
    periphTurn s = { s with clock := s.clock + 1 } ∨
    ∃ x y, periphTurn s = { s with clock := s.clock + 1, flag := true, stat := x, data := y, statWritten := true })

/-! ## WAIT -/

/-- R160, R84: WAIT under the answer D(k, s, d) makes k reads of CTRL, the last seeing FLAG = 1, and answers ok with
STAT = s and DATA = d. -/
def Obligations.WaitDone : Prop :=
  ∀ (p : Phase) (s : State) (c : Completion) (rest : List PeriphMove),
    s.flag = false → s.en = true → c.fits s.poll.toNat = true → s.script = c.moves ++ rest →
    ∃ t, wait p s = (.ok, t) ∧ t.flag = true ∧ t.stat = c.stat ∧ t.data = c.data ∧ t.script = rest ∧
      t.poll.toNat = s.poll.toNat - c.k ∧ t.trace = pollsDone c.k ++ s.trace ∧ t.en = s.en ∧ t.sta = s.sta ∧
      t.sto = s.sto ∧ t.ea = s.ea ∧ t.result = s.result ∧ sameSetup s t ∧ sameBuf s t

/-- R160, R84: WAIT under the answer T makes exactly POLL reads of CTRL, none seeing FLAG = 1, and answers timeout; STAT and
DATA keep their values. -/
def Obligations.WaitTimeout : Prop :=
  ∀ (p : Phase) (s : State) (rest : List PeriphMove),
    s.flag = false → s.en = true → s.script = timeoutMoves s.poll.toNat ++ rest →
    ∃ t, wait p s = (.timeout, t) ∧ t.flag = false ∧ t.stat = s.stat ∧ t.data = s.data ∧ t.script = rest ∧ t.poll = 0 ∧
      t.trace = pollsTimeout s.poll.toNat ++ s.trace ∧ t.en = s.en ∧ t.sta = s.sta ∧ t.sto = s.sto ∧ t.ea = s.ea ∧
      t.result = s.result ∧ sameSetup s t ∧ sameBuf s t

/-- R160: whatever PERIPH does, WAIT makes at most POLL reads of CTRL and no other access; it answers ok if and only if its
last read saw FLAG = 1, and timeout if and only if it has used up POLL and every read saw 0. -/
def Obligations.WaitBounded : Prop :=
  ∀ (p : Phase) (s : State),
    ∃ k, k ≤ s.poll.toNat ∧ (wait p s).2.poll.toNat + k = s.poll.toNat ∧
      (((wait p s).1 = .ok ∧ 1 ≤ k ∧ (wait p s).2.trace = pollsDone k ++ s.trace ∧ (wait p s).2.flag = true) ∨
        ((wait p s).1 = .timeout ∧ k = s.poll.toNat ∧ (wait p s).2.trace = pollsTimeout k ++ s.trace))

/-! ## CONFIGURE and RESET -/

/-- R190: CONFIGURE writes DIV, PULLUP and CTRL in that order and nothing else, keeps RESULT, and clears no FLAG; EN is 1, and
with R9's CW_ENABLE STA, STO and EA are 0. FLAG, STAT and DATA keep their values unless PERIPH, enabled before, completes
meanwhile. -/
def Obligations.ConfigureResult : Prop :=
  ∀ (khz : BitVec 16) (pu : Bool) (s : State), s.cfg.wf = true → khz ≠ 0 → s.ph = .idle →
    ∃ t, exec (.configure khz pu) s = .next t ∧ t.ph = .idle ∧
      (∀ d, divisor s.cfg.divisor khz = some d → t.div = d) ∧
      (divisor s.cfg.divisor khz = none → t.div = Config.freeByte s.draws) ∧
      t.pu = pu ∧ ctrlHolds s.cfg.cw.enable t ∧ t.en = true ∧
      (s.cfg.cw.enable = 1#8 <<< s.cfg.bits.bEn.val → t.sta = false ∧ t.sto = false ∧ t.ea = false) ∧
      ((t.flag = s.flag ∧ t.stat = s.stat ∧ t.data = s.data) ∨ (s.flag = false ∧ s.en = true ∧ t.flag = true)) ∧
      t.trace = [.finished none, .ioWrite .ctrl s.cfg.cw.enable, .ioWrite .pullup (zextBit pu), .ioWrite .div t.div,
        .issued (encode (.configure khz pu))] ++ s.trace ∧
      t.result = s.result ∧ t.resultValid = s.resultValid ∧ sameBuf s t ∧ t.cfg = s.cfg ∧ t.host = s.host

/-- R255: RESET writes CTRL = 0 and nothing else: EN, STA, STO, EA and FLAG are 0, and DIV, PU and RESULT are kept. STAT and
DATA keep their values unless PERIPH, enabled before, completes before the write. -/
def Obligations.ResetResult : Prop :=
  ∀ s : State, s.cfg.wf = true → s.ph = .idle →
    ∃ t, exec .reset s = .next t ∧ t.ph = .idle ∧
      t.en = false ∧ t.sta = false ∧ t.sto = false ∧ t.ea = false ∧ t.flag = false ∧
      ((t.stat = s.stat ∧ t.data = s.data) ∨ (s.flag = false ∧ s.en = true)) ∧
      t.trace = [.finished none, .ioWrite .ctrl 0, .issued (encode .reset)] ++ s.trace ∧
      t.result = s.result ∧ t.resultValid = s.resultValid ∧ sameSetup s t ∧ sameBuf s t

/-- R256 (f): a second RESET changes nothing but the port events. -/
def Obligations.ResetIdempotent : Prop :=
  ∀ s t u : State, s.cfg.wf = true → exec .reset s = .next t → exec .reset t = .next u →
    u = { t with trace := u.trace }

/-- R191 (c): a second CONFIGURE with the same operands leaves the fields of CTRL, DIV and PU as the first left them, where
the divisor is defined. -/
def Obligations.ConfigureIdempotent : Prop :=
  ∀ (khz : BitVec 16) (pu : Bool) (d : Byte) (s t u : State), divisor s.cfg.divisor khz = some d →
    exec (.configure khz pu) s = .next t → exec (.configure khz pu) t = .next u →
    u.en = t.en ∧ u.sta = t.sta ∧ u.sto = t.sto ∧ u.ea = t.ea ∧ u.div = t.div ∧ u.pu = t.pu

/-! ## STOP and SEND -/

/-- R250, R180: STOP writes CW_STOP and polls; RESULT is 0 if a poll saw FLAG = 1 and E_ST_TIMEOUT after POLL_LIMIT polls that
saw 0. No other access is made. -/
def Obligations.StopResult : Prop :=
  ∀ s : State, s.cfg.wf = true → s.ph = .idle →
    ∃ t k, exec .stop s = .next t ∧ t.ph = .idle ∧ t.resultValid = true ∧ 1 ≤ k ∧
      k ≤ s.cfg.pollLimit.toNat ∧ ctrlHolds s.cfg.cw.stop t ∧
      ((t.result = 0 ∧ t.flag = true ∧
          t.trace = .finished (some 0) ::
            (pollsDone k ++ [.ioWrite .ctrl s.cfg.cw.stop, .issued (encode .stop)] ++ s.trace)) ∨
        (t.result = s.cfg.codes.stTimeout ∧ t.flag = false ∧ k = s.cfg.pollLimit.toNat ∧
          t.trace = .finished (some s.cfg.codes.stTimeout) ::
            (pollsTimeout k ++ [.ioWrite .ctrl s.cfg.cw.stop, .issued (encode .stop)] ++ s.trace))) ∧
      sameSetup s t ∧ sameBuf s t

/-- R251 (b): for every idle state PERIPH may let STOP succeed and may let it time out. -/
def Obligations.StopBothOutcomes : Prop :=
  ∀ s : State, s.cfg.wf = true → s.ph = .idle →
    (∃ script t, exec .stop { s with script := script } = .next t ∧ t.result = 0) ∧
    (∃ script t, exec .stop { s with script := script } = .next t ∧ t.result = s.cfg.codes.stTimeout)

/-- R210, R170: SEND writes VAL to DATA, triggers with CW_XFER and polls. After a completion STAT is read once, and RESULT is 0
if the masked status is S_TXD_ACK and E_SB_STATUS otherwise; after POLL_LIMIT polls that saw 0 RESULT is E_SB_TIMEOUT and
STAT is not read. No other access is made. -/
def Obligations.SendResult : Prop :=
  ∀ (val : Byte) (s : State), s.cfg.wf = true → s.ph = .idle →
    ∃ t k, exec (.send val) s = .next t ∧ t.ph = .idle ∧ t.resultValid = true ∧ 1 ≤ k ∧
      k ≤ s.cfg.pollLimit.toNat ∧ ctrlHolds s.cfg.cw.xfer t ∧
      ((t.flag = true ∧
          t.result = (if t.stat &&& s.cfg.statusMask = s.cfg.status.txdAck then 0 else s.cfg.codes.sb.status) ∧
          t.trace = [.finished (some t.result), .ioRead .stat t.stat] ++ pollsDone k ++
            [.ioWrite .ctrl s.cfg.cw.xfer, .ioWrite .data val, .issued (encode (.send val))] ++ s.trace) ∨
        (t.flag = false ∧ k = s.cfg.pollLimit.toNat ∧ t.result = s.cfg.codes.sb.timeout ∧
          t.trace = .finished (some s.cfg.codes.sb.timeout) :: (pollsTimeout k ++
            [.ioWrite .ctrl s.cfg.cw.xfer, .ioWrite .data val, .issued (encode (.send val))] ++ s.trace))) ∧
      sameSetup s t ∧ sameBuf s t

/-- R210, R84: SEND under the answer D(k, s, d) to its WAIT. -/
def Obligations.SendAnswered : Prop :=
  ∀ (val : Byte) (s : State) (c : Completion) (rest : List PeriphMove), s.cfg.wf = true → s.ph = .idle →
    c.fits s.cfg.pollLimit.toNat = true → (periphTurn (periphTurn s)).script = c.moves ++ rest →
    ∃ t, exec (.send val) s = .next t ∧ t.stat = c.stat ∧ t.data = c.data ∧ t.script = rest ∧
      t.result = if c.stat &&& s.cfg.statusMask = s.cfg.status.txdAck then 0 else s.cfg.codes.sb.status

/-! ## BEGIN and ADDRESS -/

/-- R200: whatever PERIPH does, BEGIN ends idle with RESULT 0 or one of its four codes, writes CW_START and CW_XFER only (so no
stop), sends only the address byte of the write direction, and leaves BUF, DIV and PU alone. -/
def Obligations.BeginCompletes : Prop :=
  ∀ (dev : BitVec 7) (s : State), s.ph = .idle →
    ∃ t evs, exec (.beginTrans dev) s = .next t ∧ t.ph = .idle ∧ t.resultValid = true ∧
      (t.result = 0 ∨ t.result ∈ s.cfg.codes.bt.toList) ∧
      t.trace = evs ++ s.trace ∧ evs.head? = some (.finished (some t.result)) ∧
      (∀ w ∈ ctrlWords evs, w = s.cfg.cw.start ∨ w = s.cfg.cw.xfer) ∧
      (∀ v ∈ dataBytes evs, v = addrByte dev .write) ∧ bufReads evs = [] ∧ bufWrites evs = [] ∧
      sameSetup s t ∧ sameBuf s t

/-- R165, R166 (b): BEGIN acknowledged at attempt number n + 1, after n not-acknowledges (n at most ADDR_RETRIES): RESULT is 0,
every attempt writes CW_START, the address byte and CW_XFER, FLAG is 1 and STAT and DATA are the last answer's. RETRY has
counted down by n and ST holds the masked status (R165), as the model keeps them when the block is idle (log 23). -/
def Obligations.BeginAcked : Prop :=
  ∀ (dev : BitVec 7) (s : State) (nacks : List (Completion × Completion)) (last : Completion × Completion)
    (rest : List PeriphMove), s.cfg.wf = true → s.ph = .idle → nacks.length ≤ s.cfg.addrRetries.toNat →
    (∀ a ∈ nacks ++ [last], a.1.fits s.cfg.pollLimit.toNat = true ∧ a.2.fits s.cfg.pollLimit.toNat = true ∧
      isStartStatus s.cfg.status (a.1.stat &&& s.cfg.statusMask) = true) →
    (∀ a ∈ nacks, a.2.stat &&& s.cfg.statusMask = s.cfg.status.slawNack) →
    last.2.stat &&& s.cfg.statusMask = s.cfg.status.slawAck →
    (periphTurn s).script = (nacks ++ [last]).flatMap attemptMoves ++ rest →
    ∃ t evs, exec (.beginTrans dev) s = .next t ∧ t.ph = .idle ∧ t.result = 0 ∧ t.resultValid = true ∧ t.flag = true ∧
      ctrlHolds s.cfg.cw.xfer t ∧ t.stat = last.2.stat ∧ t.data = last.2.data ∧ t.st = s.cfg.status.slawAck ∧
      t.retry.toNat = s.cfg.addrRetries.toNat - nacks.length ∧ t.script = rest ∧ t.trace = evs ++ s.trace ∧
      ctrlWords evs = (List.replicate (nacks.length + 1) [s.cfg.cw.xfer, s.cfg.cw.start]).flatten ∧
      dataBytes evs = List.replicate (nacks.length + 1) (addrByte dev .write)

/-- R166 (c): with a peripheral that always answers the not-acknowledge status, BEGIN makes exactly ADDR_RETRIES + 1 attempts
and RESULT is E_BT_ADDR_STATUS, not a timeout code; no stop is written. RETRY is 0, as the model keeps it (log 23). -/
def Obligations.BeginNacked : Prop :=
  ∀ (dev : BitVec 7) (s : State) (nacks : List (Completion × Completion)) (rest : List PeriphMove),
    s.cfg.wf = true → s.ph = .idle → nacks.length = s.cfg.addrRetries.toNat + 1 →
    (∀ a ∈ nacks, a.1.fits s.cfg.pollLimit.toNat = true ∧ a.2.fits s.cfg.pollLimit.toNat = true ∧
      isStartStatus s.cfg.status (a.1.stat &&& s.cfg.statusMask) = true ∧
      a.2.stat &&& s.cfg.statusMask = s.cfg.status.slawNack) →
    (periphTurn s).script = nacks.flatMap attemptMoves ++ rest →
    ∃ t evs, exec (.beginTrans dev) s = .next t ∧ t.ph = .idle ∧ t.result = s.cfg.codes.bt.addrStatus ∧
      t.result ≠ s.cfg.codes.bt.startTimeout ∧ t.result ≠ s.cfg.codes.bt.addrTimeout ∧ t.retry = 0 ∧ t.flag = true ∧
      ctrlHolds s.cfg.cw.xfer t ∧ t.script = rest ∧ t.trace = evs ++ s.trace ∧
      ctrlWords evs = (List.replicate (s.cfg.addrRetries.toNat + 1) [s.cfg.cw.xfer, s.cfg.cw.start]).flatten ∧
      dataBytes evs = List.replicate (s.cfg.addrRetries.toNat + 1) (addrByte dev .write)

/-- R165, R166 (a): a failure of the start is final: a timeout gives E_BT_START_TIMEOUT with STAT not read, a status other than
S_START and S_REP_START gives E_BT_START_STATUS; DATA is not written and there is no second attempt. -/
def Obligations.BeginStartFails : Prop :=
  (∀ (dev : BitVec 7) (s : State) (rest : List PeriphMove), s.cfg.wf = true → s.ph = .idle →
    (periphTurn s).script = timeoutMoves s.cfg.pollLimit.toNat ++ rest →
    ∃ t, exec (.beginTrans dev) s = .next t ∧ t.result = s.cfg.codes.bt.startTimeout ∧ t.flag = false ∧
      ctrlHolds s.cfg.cw.start t ∧
      t.trace = .finished (some s.cfg.codes.bt.startTimeout) :: (pollsTimeout s.cfg.pollLimit.toNat ++
        [.ioWrite .ctrl s.cfg.cw.start, .issued (encode (.beginTrans dev))] ++ s.trace)) ∧
  (∀ (dev : BitVec 7) (s : State) (c : Completion) (rest : List PeriphMove), s.cfg.wf = true → s.ph = .idle →
    c.fits s.cfg.pollLimit.toNat = true → isStartStatus s.cfg.status (c.stat &&& s.cfg.statusMask) = false →
    (periphTurn s).script = c.moves ++ rest →
    ∃ t, exec (.beginTrans dev) s = .next t ∧ t.result = s.cfg.codes.bt.startStatus ∧ t.flag = true ∧
      ctrlHolds s.cfg.cw.start t ∧
      t.trace = [.finished (some s.cfg.codes.bt.startStatus), .ioRead .stat c.stat] ++ pollsDone c.k ++
        [.ioWrite .ctrl s.cfg.cw.start, .issued (encode (.beginTrans dev))] ++ s.trace)

/-- R165, R166 (a): after a good start, a timeout of the address byte gives E_BT_ADDR_TIMEOUT, and a status that is neither the
acknowledge nor the not-acknowledge of the write direction gives E_BT_ADDR_STATUS at once, with no retry. RETRY has not
counted down, as the model keeps it (log 23). -/
def Obligations.BeginAddressFails : Prop :=
  (∀ (dev : BitVec 7) (s : State) (a : Completion) (rest : List PeriphMove), s.cfg.wf = true → s.ph = .idle →
    a.fits s.cfg.pollLimit.toNat = true → isStartStatus s.cfg.status (a.stat &&& s.cfg.statusMask) = true →
    (periphTurn s).script = a.moves ++ timeoutMoves s.cfg.pollLimit.toNat ++ rest →
    ∃ t, exec (.beginTrans dev) s = .next t ∧ t.result = s.cfg.codes.bt.addrTimeout ∧ t.flag = false ∧
      t.retry = s.cfg.addrRetries ∧
      t.trace = .finished (some s.cfg.codes.bt.addrTimeout) :: (pollsTimeout s.cfg.pollLimit.toNat ++
        [.ioWrite .ctrl s.cfg.cw.xfer, .ioWrite .data (addrByte dev .write), .ioRead .stat a.stat] ++ pollsDone a.k ++
        [.ioWrite .ctrl s.cfg.cw.start, .issued (encode (.beginTrans dev))] ++ s.trace)) ∧
  (∀ (dev : BitVec 7) (s : State) (a b : Completion) (rest : List PeriphMove), s.cfg.wf = true → s.ph = .idle →
    a.fits s.cfg.pollLimit.toNat = true → isStartStatus s.cfg.status (a.stat &&& s.cfg.statusMask) = true →
    b.fits s.cfg.pollLimit.toNat = true → b.stat &&& s.cfg.statusMask ≠ s.cfg.status.slawAck →
    b.stat &&& s.cfg.statusMask ≠ s.cfg.status.slawNack →
    (periphTurn s).script = a.moves ++ b.moves ++ rest →
    ∃ t, exec (.beginTrans dev) s = .next t ∧ t.result = s.cfg.codes.bt.addrStatus ∧ t.flag = true ∧
      t.retry = s.cfg.addrRetries ∧
      t.trace = [.finished (some s.cfg.codes.bt.addrStatus), .ioRead .stat b.stat] ++ pollsDone b.k ++
        [.ioWrite .ctrl s.cfg.cw.xfer, .ioWrite .data (addrByte dev .write), .ioRead .stat a.stat] ++ pollsDone a.k ++
        [.ioWrite .ctrl s.cfg.cw.start, .issued (encode (.beginTrans dev))] ++ s.trace)

/-- R165, R166 (a) to (d), R290 rows 1 to 4: however BEGIN's ADDRESS ends, at whatever attempt, RESULT is that step's code (0
where it is acknowledged), and CTRL and DATA have received exactly the words and bytes of the attempts made. -/
def Obligations.BeginEndCodes : Prop :=
  ∀ (dev : BitVec 7) (s : State) (e : AddrEnd) (nacks : List (Completion × Completion)) (last : List Answer)
    (rest : List PeriphMove), s.cfg.wf = true → s.ph = .idle →
    addressAnswers s.cfg .write e nacks last = true → (periphTurn s).script = addressMoves s.cfg nacks last ++ rest →
    ∃ t evs, exec (.beginTrans dev) s = .next t ∧ t.ph = .idle ∧ t.result = addrEndCode s.cfg.codes.bt e ∧
      t.script = rest ∧ t.trace = evs ++ s.trace ∧ (dataBytes evs).reverse = addressBytes dev .write nacks last ∧
      (ctrlWords evs).reverse = addressWords s.cfg nacks last

/-! ## WRBLK -/

/-- R220, R222: where BUF[0..LEN-1] holds values, WRBLK ends idle whatever PERIPH does, with RESULT 0 or one of its eight codes;
it writes CW_START and CW_XFER only, so no stop, on success and on failure; BUF, DIV and PU are unchanged. -/
def Obligations.WrblkCompletes : Prop :=
  ∀ (dev : BitVec 7) (reg len : Byte) (s : State), s.ph = .idle → bufReady s len.toNat →
    ∃ t evs, exec (.wrblk dev reg len) s = .next t ∧ t.ph = .idle ∧ t.resultValid = true ∧
      (t.result = 0 ∨ t.result ∈ s.cfg.codes.wb.toList ++ s.cfg.codes.wbReg.toList ++ s.cfg.codes.wbData.toList) ∧
      t.trace = evs ++ s.trace ∧ evs.head? = some (.finished (some t.result)) ∧
      (∀ w ∈ ctrlWords evs, w = s.cfg.cw.start ∨ w = s.cfg.cw.xfer) ∧ bufWrites evs = [] ∧
      sameSetup s t ∧ sameBuf s t

/-- R85, R221: WRBLK reads BUF[0], BUF[1], ... each once and in ascending order, reads no index at or above LEN, and sends after
the address bytes and the register address exactly the bytes it read. -/
def Obligations.WrblkReadsInOrder : Prop :=
  ∀ (dev : BitVec 7) (reg len : Byte) (s t : State) (evs : List PortEvent),
    exec (.wrblk dev reg len) s = .next t → t.trace = evs ++ s.trace →
    ∃ (m : Nat) (bytes : List Byte) (n : Nat), m ≤ len.toNat ∧ bytes.length = m ∧
      (∀ i (h : i < bytes.length), Memory.read s.buf i = some bytes[i]) ∧
      (bufReads evs).reverse = (List.range m).zip bytes ∧
      ((dataBytes evs).reverse = List.replicate n (addrByte dev .write) ∧ m = 0 ∨
        (dataBytes evs).reverse = List.replicate n (addrByte dev .write) ++ reg :: bytes) ∧
      (t.result = 0 → s.cfg.wf = true → m = len.toNat)

/-- R220: WRBLK with its address acknowledged at once and every byte acknowledged: RESULT is 0, and DATA receives the address
byte, the register address and BUF[0..LEN-1] in order, each triggered by CW_XFER. IDX is LEN, as the model keeps it
(log 23). -/
def Obligations.WrblkAcked : Prop :=
  ∀ (dev : BitVec 7) (reg len : Byte) (s : State) (a : Completion × Completion) (acks : List Completion)
    (bytes : List Byte) (rest : List PeriphMove), s.cfg.wf = true → s.ph = .idle →
    a.1.fits s.cfg.pollLimit.toNat = true → isStartStatus s.cfg.status (a.1.stat &&& s.cfg.statusMask) = true →
    a.2.fits s.cfg.pollLimit.toNat = true → a.2.stat &&& s.cfg.statusMask = s.cfg.status.slawAck →
    acks.length = len.toNat + 1 →
    (∀ c ∈ acks, c.fits s.cfg.pollLimit.toNat = true ∧ c.stat &&& s.cfg.statusMask = s.cfg.status.txdAck) →
    bytes.length = len.toNat → (∀ i (h : i < bytes.length), Memory.read s.buf i = some bytes[i]) →
    (periphTurn s).script = attemptMoves a ++ acks.flatMap Completion.moves ++ rest →
    ∃ t evs, exec (.wrblk dev reg len) s = .next t ∧ t.ph = .idle ∧ t.result = 0 ∧ t.resultValid = true ∧
      t.flag = true ∧ ctrlHolds s.cfg.cw.xfer t ∧ t.idx = len ∧ t.script = rest ∧ sameBuf s t ∧
      t.trace = evs ++ s.trace ∧
      (dataBytes evs).reverse = addrByte dev .write :: reg :: bytes ∧
      (ctrlWords evs).reverse = s.cfg.cw.start :: List.replicate (len.toNat + 2) s.cfg.cw.xfer ∧
      (bufReads evs).reverse = (List.range len.toNat).zip bytes

/-- R220, R290 rows 8 to 15: the failing step of WRBLK is its RESULT's code. ADDRESS ending at any step of any attempt gives that
step's E_WB_* code; a register address that is not acknowledged gives E_WB_REG_*; data byte n that is not acknowledged gives
E_WB_DATA_*, with BUF read at 0 to n; and all acknowledged gives 0. DATA has received exactly the bytes up to that step, and
CTRL no stop. -/
def Obligations.WrblkEndCodes : Prop :=
  ∀ (dev : BitVec 7) (reg len : Byte) (s : State) (e : AddrEnd) (nacks : List (Completion × Completion))
    (last : List Answer) (acks : List Answer) (bad : Answer) (bytes : List Byte) (rest : List PeriphMove),
    s.cfg.wf = true → s.ph = .idle → (∀ a ∈ acks, a.fits s.cfg.pollLimit.toNat = true ∧ txAcked s.cfg a = true) →
    bad.fits s.cfg.pollLimit.toNat = true → txAcked s.cfg bad = false →
    (∀ i (h : i < bytes.length), Memory.read s.buf i = some bytes[i]) →
    (addressAnswers s.cfg .write e nacks last = true → e ≠ .acked →
      (periphTurn s).script = addressMoves s.cfg nacks last ++ rest →
      ∃ t evs, exec (.wrblk dev reg len) s = .next t ∧ t.ph = .idle ∧ t.result = addrEndCode s.cfg.codes.wb e ∧
        t.script = rest ∧ t.trace = evs ++ s.trace ∧ bufReads evs = [] ∧
        (dataBytes evs).reverse = addressBytes dev .write nacks last ∧
        (ctrlWords evs).reverse = addressWords s.cfg nacks last) ∧
    (addressAnswers s.cfg .write .acked nacks last = true →
      (periphTurn s).script = addressMoves s.cfg nacks last ++ bad.moves s.cfg.pollLimit.toNat ++ rest →
      ∃ t evs, exec (.wrblk dev reg len) s = .next t ∧ t.ph = .idle ∧ t.result = txFailCode s.cfg.codes.wbReg bad ∧
        t.script = rest ∧ t.trace = evs ++ s.trace ∧ bufReads evs = [] ∧
        (dataBytes evs).reverse = addressBytes dev .write nacks last ++ [reg] ∧
        (ctrlWords evs).reverse = addressWords s.cfg nacks last ++ [s.cfg.cw.xfer]) ∧
    (addressAnswers s.cfg .write .acked nacks last = true → 1 ≤ acks.length → bytes.length = acks.length →
      bytes.length ≤ len.toNat →
      (periphTurn s).script = addressMoves s.cfg nacks last ++
        (acks ++ [bad]).flatMap (Answer.moves s.cfg.pollLimit.toNat) ++ rest →
      ∃ t evs, exec (.wrblk dev reg len) s = .next t ∧ t.ph = .idle ∧ t.result = txFailCode s.cfg.codes.wbData bad ∧
        t.script = rest ∧ t.trace = evs ++ s.trace ∧ (bufReads evs).reverse = (List.range bytes.length).zip bytes ∧
        (dataBytes evs).reverse = addressBytes dev .write nacks last ++ reg :: bytes ∧
        (ctrlWords evs).reverse =
          addressWords s.cfg nacks last ++ List.replicate (acks.length + 1) s.cfg.cw.xfer) ∧
    (addressAnswers s.cfg .write .acked nacks last = true → acks.length = len.toNat + 1 → bytes.length = len.toNat →
      (periphTurn s).script = addressMoves s.cfg nacks last ++
        acks.flatMap (Answer.moves s.cfg.pollLimit.toNat) ++ rest →
      ∃ t evs, exec (.wrblk dev reg len) s = .next t ∧ t.ph = .idle ∧ t.result = 0 ∧
        t.script = rest ∧ t.trace = evs ++ s.trace ∧ (bufReads evs).reverse = (List.range bytes.length).zip bytes ∧
        (dataBytes evs).reverse = addressBytes dev .write nacks last ++ reg :: bytes ∧
        (ctrlWords evs).reverse = addressWords s.cfg nacks last ++ List.replicate acks.length s.cfg.cw.xfer)

/-- R223, R84: the accesses of the IO space that `WRBLK dev, reg, n` makes are those of `BEGIN dev; SEND reg; SEND BUF[0]; ...`
cut at its first non-zero result, and the one ends with 0 exactly if the other does. The two runs start from one state, so
from one script and one counter, and see the same moves of PERIPH: that is the model's form of PERIPH's answers (log 7). -/
def Obligations.WrblkIsBeginAndSends : Prop :=
  ∀ (dev : BitVec 7) (reg len : Byte) (s t : State) (bytes : List Byte), s.cfg.wf = true →
    bytes.length = len.toNat → (∀ i (h : i < bytes.length), Memory.read s.buf i = some bytes[i]) →
    exec (.wrblk dev reg len) s = .next t →
    ∃ u ewr ese, beginThenSends dev (reg :: bytes) s = .next u ∧ t.trace = ewr ++ s.trace ∧ u.trace = ese ++ s.trace ∧
      ioEvents ewr = ioEvents ese ∧ (t.result = 0 ↔ u.result = 0)

/-- R48, R52: the one fault a command can end in is WRBLK's read of a byte of BUF below LEN that holds no value. -/
def Obligations.ExecFaults : Prop :=
  ∀ (i : Instr) (s : State) (f : Fault), exec i s = .fault f →
    ∃ dev reg len k, i = .wrblk dev reg len ∧ f = .bufNoValue k ∧ k < len.toNat ∧ Memory.read s.buf k = none

/-! ## RDBLK -/

/-- R230, R232, R233: RDBLK ends idle whatever PERIPH does. The last word written to CTRL is CW_STOP, written once, and no other
word it writes is anything but CW_START, CW_XFER, CW_RX_ACK or CW_RX_NACK; the word CTRL is left with is CW_STOP; RESULT is 0,
one of the eleven codes, or a masked status outside the accepted set. -/
def Obligations.RdblkCompletes : Prop :=
  ∀ (dev : BitVec 7) (reg len : Byte) (s : State), s.ph = .idle →
    ∃ t evs ws, exec (.rdblk dev reg len) s = .next t ∧ t.ph = .idle ∧ t.resultValid = true ∧
      (t.result = 0 ∨
        t.result ∈ s.cfg.codes.rbA.toList ++ s.cfg.codes.rbReg.toList ++ s.cfg.codes.rbB.toList ++
          [s.cfg.codes.rbDataTimeout] ∨
        ((∃ v, t.result = v &&& s.cfg.statusMask ∧ .ioRead .stat v ∈ evs) ∧
          isRxStatus s.cfg.status t.result = false)) ∧
      t.trace = evs ++ s.trace ∧ evs.head? = some (.finished (some t.result)) ∧
      ctrlWords evs = s.cfg.cw.stop :: ws ∧
      (∀ w ∈ ws, w = s.cfg.cw.start ∨ w = s.cfg.cw.xfer ∨ w = s.cfg.cw.rxAck ∨ w = s.cfg.cw.rxNack) ∧
      ctrlHolds s.cfg.cw.stop t ∧ bufReads evs = [] ∧ sameSetup s t

/-- R85, R231: RDBLK writes BUF[0], BUF[1], ... each once and in ascending order, up to some index at most LEN; every other
byte of BUF keeps what it holds. Every byte stored is one read from DATA, in order. -/
def Obligations.RdblkBuffer : Prop :=
  ∀ (dev : BitVec 7) (reg len : Byte) (s t : State) (evs : List PortEvent),
    exec (.rdblk dev reg len) s = .next t → t.trace = evs ++ s.trace →
    ∃ bytes : List Byte, bytes.length ≤ len.toNat ∧
      (bufWrites evs).reverse = (List.range bytes.length).zip bytes ∧
      (dataReads evs).reverse = bytes ∧
      (∀ i (h : i < bytes.length), Memory.read t.buf i = some bytes[i]) ∧
      (∀ a, bytes.length ≤ a → Memory.read t.buf a = Memory.read s.buf a)

/-- R230, R231: RDBLK with both addressing phases and the register address acknowledged at once and every received byte's status
accepted: RESULT is 0 whatever the stop's WAIT does, BUF[0..LEN-1] holds the received bytes in order and every other byte is
unchanged, and CTRL receives exactly LEN - 1 times CW_RX_ACK and then, if LEN is not 0, once CW_RX_NACK before the stop. -/
def Obligations.RdblkReceives : Prop :=
  ∀ (dev : BitVec 7) (reg len : Byte) (s : State) (a b : Completion × Completion) (r : Completion)
    (rx : List Completion) (rest : List PeriphMove), s.cfg.wf = true → s.ph = .idle →
    a.1.fits s.cfg.pollLimit.toNat = true → isStartStatus s.cfg.status (a.1.stat &&& s.cfg.statusMask) = true →
    a.2.fits s.cfg.pollLimit.toNat = true → a.2.stat &&& s.cfg.statusMask = s.cfg.status.slawAck →
    r.fits s.cfg.pollLimit.toNat = true → r.stat &&& s.cfg.statusMask = s.cfg.status.txdAck →
    b.1.fits s.cfg.pollLimit.toNat = true → isStartStatus s.cfg.status (b.1.stat &&& s.cfg.statusMask) = true →
    b.2.fits s.cfg.pollLimit.toNat = true → b.2.stat &&& s.cfg.statusMask = s.cfg.status.slarAck →
    rx.length = len.toNat →
    (∀ c ∈ rx, c.fits s.cfg.pollLimit.toNat = true ∧
      isRxStatus s.cfg.status (c.stat &&& s.cfg.statusMask) = true) →
    (periphTurn s).script = attemptMoves a ++ r.moves ++ attemptMoves b ++ rx.flatMap Completion.moves ++ rest →
    ∃ t evs, exec (.rdblk dev reg len) s = .next t ∧ t.ph = .idle ∧ t.result = 0 ∧ t.resultValid = true ∧
      t.trace = evs ++ s.trace ∧
      (∀ i (h : i < rx.length), Memory.read t.buf i = some (rx[i]).data) ∧
      (∀ i, len.toNat ≤ i → Memory.read t.buf i = Memory.read s.buf i) ∧
      (dataBytes evs).reverse = [addrByte dev .write, reg, addrByte dev .read] ∧
      (ctrlWords evs).reverse =
        [s.cfg.cw.start, s.cfg.cw.xfer, s.cfg.cw.xfer, s.cfg.cw.start, s.cfg.cw.xfer] ++
          List.replicate (len.toNat - 1) s.cfg.cw.rxAck ++ (if len = 0 then [] else [s.cfg.cw.rxNack]) ++
          [s.cfg.cw.stop]

/-- R231, R233, R129: a received byte whose masked status is neither S_RXD_ACK nor S_RXD_NACK ends the loop: the masked status is
RESULT (so a masked status 0 gives RESULT = 0), DATA is read for the bytes before it and not for it, and BUF from its index on
keeps what it holds. -/
def Obligations.RdblkUnexpectedStatus : Prop :=
  ∀ (dev : BitVec 7) (reg len : Byte) (s : State) (a b : Completion × Completion) (r bad : Completion)
    (rx : List Completion) (rest : List PeriphMove), s.cfg.wf = true → s.ph = .idle →
    a.1.fits s.cfg.pollLimit.toNat = true → isStartStatus s.cfg.status (a.1.stat &&& s.cfg.statusMask) = true →
    a.2.fits s.cfg.pollLimit.toNat = true → a.2.stat &&& s.cfg.statusMask = s.cfg.status.slawAck →
    r.fits s.cfg.pollLimit.toNat = true → r.stat &&& s.cfg.statusMask = s.cfg.status.txdAck →
    b.1.fits s.cfg.pollLimit.toNat = true → isStartStatus s.cfg.status (b.1.stat &&& s.cfg.statusMask) = true →
    b.2.fits s.cfg.pollLimit.toNat = true → b.2.stat &&& s.cfg.statusMask = s.cfg.status.slarAck →
    rx.length < len.toNat →
    (∀ c ∈ rx, c.fits s.cfg.pollLimit.toNat = true ∧
      isRxStatus s.cfg.status (c.stat &&& s.cfg.statusMask) = true) →
    bad.fits s.cfg.pollLimit.toNat = true → isRxStatus s.cfg.status (bad.stat &&& s.cfg.statusMask) = false →
    (periphTurn s).script =
      attemptMoves a ++ r.moves ++ attemptMoves b ++ rx.flatMap Completion.moves ++ bad.moves ++ rest →
    ∃ t evs, exec (.rdblk dev reg len) s = .next t ∧ t.ph = .idle ∧ t.resultValid = true ∧
      t.result = bad.stat &&& s.cfg.statusMask ∧ t.trace = evs ++ s.trace ∧
      (dataReads evs).reverse = rx.map Completion.data ∧
      (bufWrites evs).reverse = (List.range rx.length).zip (rx.map Completion.data) ∧
      (∀ i (h : i < rx.length), Memory.read t.buf i = some (rx[i]).data) ∧
      (∀ i, rx.length ≤ i → Memory.read t.buf i = Memory.read s.buf i)

/-- R232, R290 rows 16 and 17: a failure of the first start goes straight to the stop, with no DATA write and BUF untouched.
A timeout gives E_RB_A_START_TIMEOUT, CW_STOP being written while the start is still pending, and a status that is neither
S_START nor S_REP_START gives E_RB_A_START_STATUS; the stop's own outcome does not change RESULT. -/
def Obligations.RdblkStopsAfterFailure : Prop :=
  (∀ (dev : BitVec 7) (reg len : Byte) (s : State) (rest : List PeriphMove), s.cfg.wf = true → s.ph = .idle →
    (periphTurn s).script = timeoutMoves s.cfg.pollLimit.toNat ++ rest →
    ∃ t evs, exec (.rdblk dev reg len) s = .next t ∧ t.ph = .idle ∧ t.result = s.cfg.codes.rbA.startTimeout ∧
      sameBuf s t ∧ t.trace = evs ++ s.trace ∧ (ctrlWords evs).reverse = [s.cfg.cw.start, s.cfg.cw.stop] ∧
      dataBytes evs = [] ∧ ctrlHolds s.cfg.cw.stop t) ∧
  (∀ (dev : BitVec 7) (reg len : Byte) (s : State) (c : Completion) (rest : List PeriphMove), s.cfg.wf = true →
    s.ph = .idle → c.fits s.cfg.pollLimit.toNat = true →
    isStartStatus s.cfg.status (c.stat &&& s.cfg.statusMask) = false → (periphTurn s).script = c.moves ++ rest →
    ∃ t evs, exec (.rdblk dev reg len) s = .next t ∧ t.ph = .idle ∧ t.result = s.cfg.codes.rbA.startStatus ∧
      sameBuf s t ∧ t.trace = evs ++ s.trace ∧ (ctrlWords evs).reverse = [s.cfg.cw.start, s.cfg.cw.stop] ∧
      dataBytes evs = [] ∧ ctrlHolds s.cfg.cw.stop t)

/-- R230, R290 rows 16 to 25, R234 (d), (e): the failing step of RDBLK before its first byte is its RESULT's code. Phase (a) and
phase (b) each end at any step of any attempt with that phase's own code, after up to ADDR_RETRIES not-acknowledges of its
own, whatever the other phase has used (R166 f); a register address that is not acknowledged ends it with E_RB_REG_*. No byte
is requested, BUF is untouched, and every path ends with CW_STOP. -/
def Obligations.RdblkAddressEnds : Prop :=
  ∀ (dev : BitVec 7) (reg len : Byte) (s : State) (e : AddrEnd) (na nb : List (Completion × Completion))
    (la lb : List Answer) (r : Answer) (rest : List PeriphMove), s.cfg.wf = true → s.ph = .idle →
    (addressAnswers s.cfg .write e na la = true → e ≠ .acked →
      (periphTurn s).script = addressMoves s.cfg na la ++ rest →
      ∃ t evs, exec (.rdblk dev reg len) s = .next t ∧ t.ph = .idle ∧ t.result = addrEndCode s.cfg.codes.rbA e ∧
        sameBuf s t ∧ t.trace = evs ++ s.trace ∧
        (dataBytes evs).reverse = addressBytes dev .write na la ∧
        (ctrlWords evs).reverse = addressWords s.cfg na la ++ [s.cfg.cw.stop]) ∧
    (addressAnswers s.cfg .write .acked na la = true → r.fits s.cfg.pollLimit.toNat = true → txAcked s.cfg r = false →
      (periphTurn s).script = addressMoves s.cfg na la ++ r.moves s.cfg.pollLimit.toNat ++ rest →
      ∃ t evs, exec (.rdblk dev reg len) s = .next t ∧ t.ph = .idle ∧ t.result = txFailCode s.cfg.codes.rbReg r ∧
        sameBuf s t ∧ t.trace = evs ++ s.trace ∧
        (dataBytes evs).reverse = addressBytes dev .write na la ++ [reg] ∧
        (ctrlWords evs).reverse = addressWords s.cfg na la ++ [s.cfg.cw.xfer, s.cfg.cw.stop]) ∧
    (addressAnswers s.cfg .write .acked na la = true → r.fits s.cfg.pollLimit.toNat = true → txAcked s.cfg r = true →
      addressAnswers s.cfg .read e nb lb = true → e ≠ .acked →
      (periphTurn s).script =
        addressMoves s.cfg na la ++ r.moves s.cfg.pollLimit.toNat ++ addressMoves s.cfg nb lb ++ rest →
      ∃ t evs, exec (.rdblk dev reg len) s = .next t ∧ t.ph = .idle ∧ t.result = addrEndCode s.cfg.codes.rbB e ∧
        sameBuf s t ∧ t.trace = evs ++ s.trace ∧
        (dataBytes evs).reverse = addressBytes dev .write na la ++ reg :: addressBytes dev .read nb lb ∧
        (ctrlWords evs).reverse =
          addressWords s.cfg na la ++ s.cfg.cw.xfer :: addressWords s.cfg nb lb ++ [s.cfg.cw.stop])

/-- R231, R290 row 26, R166 (f): RDBLK whose two phases are acknowledged, each after up to ADDR_RETRIES not-acknowledges of its
own. With LEN accepted bytes RESULT is 0; with a timeout at byte n below LEN it is E_RB_DATA_TIMEOUT. BUF holds the received
bytes and keeps the rest, DATA is read once for each received byte, and every request before the last byte asks for an
acknowledge. -/
def Obligations.RdblkDataEnds : Prop :=
  ∀ (dev : BitVec 7) (reg len : Byte) (s : State) (na nb : List (Completion × Completion)) (la lb : List Answer)
    (r : Answer) (rx : List Completion) (rest : List PeriphMove), s.cfg.wf = true → s.ph = .idle →
    addressAnswers s.cfg .write .acked na la = true → r.fits s.cfg.pollLimit.toNat = true → txAcked s.cfg r = true →
    addressAnswers s.cfg .read .acked nb lb = true → (∀ c ∈ rx, rxAccepted s.cfg c = true) →
    (rx.length = len.toNat →
      (periphTurn s).script = addressMoves s.cfg na la ++ r.moves s.cfg.pollLimit.toNat ++ addressMoves s.cfg nb lb ++
        rx.flatMap Completion.moves ++ rest →
      ∃ t evs, exec (.rdblk dev reg len) s = .next t ∧ t.ph = .idle ∧ t.result = 0 ∧ t.trace = evs ++ s.trace ∧
        (ctrlWords evs).reverse = addressWords s.cfg na la ++ s.cfg.cw.xfer :: addressWords s.cfg nb lb ++
          requestWords s.cfg len.toNat len.toNat ++ [s.cfg.cw.stop] ∧
        (dataBytes evs).reverse = addressBytes dev .write na la ++ reg :: addressBytes dev .read nb lb ∧
        (dataReads evs).reverse = rx.map Completion.data ∧
        (bufWrites evs).reverse = (List.range rx.length).zip (rx.map Completion.data) ∧
        (∀ i (h : i < rx.length), Memory.read t.buf i = some (rx[i]).data) ∧
        (∀ i, rx.length ≤ i → Memory.read t.buf i = Memory.read s.buf i)) ∧
    (rx.length < len.toNat →
      (periphTurn s).script = addressMoves s.cfg na la ++ r.moves s.cfg.pollLimit.toNat ++ addressMoves s.cfg nb lb ++
        rx.flatMap Completion.moves ++ timeoutMoves s.cfg.pollLimit.toNat ++ rest →
      ∃ t evs, exec (.rdblk dev reg len) s = .next t ∧ t.ph = .idle ∧ t.result = s.cfg.codes.rbDataTimeout ∧
        t.trace = evs ++ s.trace ∧
        (ctrlWords evs).reverse = addressWords s.cfg na la ++ s.cfg.cw.xfer :: addressWords s.cfg nb lb ++
          requestWords s.cfg len.toNat (rx.length + 1) ++ [s.cfg.cw.stop] ∧
        (dataBytes evs).reverse = addressBytes dev .write na la ++ reg :: addressBytes dev .read nb lb ∧
        (dataReads evs).reverse = rx.map Completion.data ∧
        (bufWrites evs).reverse = (List.range rx.length).zip (rx.map Completion.data) ∧
        (∀ i (h : i < rx.length), Memory.read t.buf i = some (rx[i]).data) ∧
        (∀ i, rx.length ≤ i → Memory.read t.buf i = Memory.read s.buf i))

/-! ## The whole machine -/

/-- R70, R112: a legal word that HOST issues to an idle block runs the command it stands for. -/
def Obligations.StepRunsDecoded : Prop :=
  ∀ (w : CmdWord) (i : Instr) (s : State) (rest : List HostEvent), s.ph = .idle → s.host = .issue w :: rest →
    decode w = .ok i → step s = exec i { s with host := rest }

/-- R304: a command is refused in two cases, tested in this order: Busy while PH != IDLE, whether its word is legal or not,
and Illegal where the word is not legal. -/
def Obligations.RefusalOrder : Prop :=
  ∀ (w : CmdWord) (s : State) (rest : List HostEvent) (e : HostEvent), e = .issue w ∨ e = .present w →
    s.host = e :: rest →
    (s.ph ≠ .idle → step s = .refused .busy) ∧
    (s.ph = .idle → ∀ why, decode w = .error why → step s = .refused (.illegal why)) ∧
    (s.ph = .idle → ∀ i, decode w = .ok i → ∀ r, step s ≠ .refused r)

/-- R112: acceptance latches OPC and the operands of the word's format and moves PH to the command's first phase; it makes no
IO or BUF access and changes no other register but those the micro-sequence sets before its first access. -/
def Obligations.PresentAccepts : Prop :=
  ∀ (w : CmdWord) (i : Instr) (s : State) (rest : List HostEvent), s.ph = .idle → s.host = .present w :: rest →
    decode w = .ok i →
    ∃ t, step s = .next t ∧ t.ph ≠ .idle ∧ t.opc = w.extractLsb' 28 4 ∧ t.seg.opcode = t.opc ∧
      (match i with
        | .configure khz pu => t.khz = khz ∧ t.puen = pu ∧ t.ph = .cfgDiv
        | .beginTrans dev => t.dev = dev ∧ t.ph = .aStart
        | .send val => t.val = val ∧ t.ph = .tData
        | .wrblk dev reg len => t.dev = dev ∧ t.rega = reg ∧ t.len = len ∧ t.ph = .aStart
        | .rdblk dev reg len => t.dev = dev ∧ t.rega = reg ∧ t.len = len ∧ t.ph = .aStart
        | .stop => t.ph = .sTrig
        | .reset => t.ph = .xCtrl) ∧
      t.trace = .issued w :: s.trace ∧ t.host = rest ∧ t.flag = s.flag ∧ t.en = s.en ∧ t.sta = s.sta ∧ t.sto = s.sto ∧
      t.ea = s.ea ∧ t.stat = s.stat ∧ t.data = s.data ∧ t.div = s.div ∧ t.pu = s.pu ∧ t.buf = s.buf ∧
      t.result = s.result ∧ t.script = s.script

/-- R15, R45, R79: running a command access by access, with PERIPH free to step before each, ends in the same state as running
it in one step; where the one faults so does the other. The two are readings of one run (log 13): they take PERIPH's moves from
one script and one counter, which is the model's form of PERIPH's answers (log 7). -/
def Obligations.AccessStepsRefineCommand : Prop :=
  ∀ (i : Instr) (s : State), s.cfg.wf = true → s.ph = .idle → i.wf = true →
    (∀ t, exec i s = .next t → ∃ n, seqRun n (startCommand i (accepted i s)) = .next t) ∧
    (∀ f, exec i s = .fault f → ∃ n, seqRun n (startCommand i (accepted i s)) = .fault f)

/-- R340: from every position of every command SEQ comes to IDLE after finitely many accesses, whatever PERIPH does, unless a
byte of BUF that holds no value is read. -/
def Obligations.SeqTerminates : Prop :=
  ∀ s : State, s.Inv → ∃ n, (∃ t, seqRun n s = .next t ∧ t.ph = .idle) ∨ ∃ k, seqRun n s = .fault (.bufNoValue k)

/-- R340: the bounds on polls and on writes of the IO space of every command. -/
def Obligations.AccessBounds : Prop :=
  ∀ (i : Instr) (s t : State), exec i s = .next t →
    ∃ evs, t.trace = evs ++ s.trace ∧ pollCount evs ≤ s.cfg.pollLimit.toNat * maxWaits s.cfg i ∧
      ioWriteCount evs ≤ maxIoWrites s.cfg i

/-- R47, R84: no result depends on a register that is dead while the block is idle, nor on the STAT and DATA that a late
completion may leave: whatever they hold, a command writes the same CTRL, DIV, PU, BUF and RESULT, makes the same accesses
and uses up the same moves of PERIPH. That two runs from the same script and counter see the same moves is the model's form
of PERIPH's answers (log 7). -/
def Obligations.DeadRegisters : Prop :=
  ∀ (i : Instr) (s d : State), s.cfg.wf = true →
    (∀ f, exec i s = .fault f → exec i (withDead s d) = .fault f) ∧
    ∀ t, exec i s = .next t → ∃ u, exec i (withDead s d) = .next u ∧ u.en = t.en ∧ u.sta = t.sta ∧
      u.sto = t.sto ∧ u.ea = t.ea ∧
      u.flag = t.flag ∧ u.div = t.div ∧ u.pu = t.pu ∧ u.buf = t.buf ∧ u.result = t.result ∧
      u.resultValid = t.resultValid ∧ u.ph = t.ph ∧ u.trace = t.trace ∧ u.script = t.script ∧ u.clock = t.clock ∧
      u.draws = t.draws

/-- What a command that ends leaves in the sequencer registers: OPC and the latches of its format are loaded (R112), each
other register changes only if the command's micro-sequence writes it (R40 to R44), and RDBLK's RESULT is ERR (R233). R47
calls all of them dead once the block is idle: that they keep their values there is the model's choice (log 23). -/
def Obligations.WorkingRegisters : Prop :=
  ∀ (i : Instr) (s t : State), exec i s = .next t → t.opc = i.opcode ∧
    match i with
    | .configure khz pu => t = { t with
        khz := khz, puen := pu, dev := s.dev, rega := s.rega, len := s.len, val := s.val, idx := s.idx, retry := s.retry
        poll := s.poll, st := s.st, err := s.err, dir := s.dir, rxb := s.rxb, txb := s.txb }
    | .beginTrans dev => t = { t with
        dev := dev, dir := .write, rega := s.rega, len := s.len, val := s.val, khz := s.khz, puen := s.puen, idx := s.idx
        err := s.err, rxb := s.rxb, txb := s.txb }
    | .send val => t = { t with
        val := val, dev := s.dev, rega := s.rega, len := s.len, khz := s.khz, puen := s.puen, idx := s.idx
        retry := s.retry, err := s.err, dir := s.dir, rxb := s.rxb, txb := s.txb }
    | .wrblk dev reg len => t = { t with
        dev := dev, rega := reg, len := len, dir := .write, val := s.val, khz := s.khz, puen := s.puen, err := s.err
        rxb := s.rxb }
    | .rdblk dev reg len => t = { t with
        dev := dev, rega := reg, len := len, err := t.result, val := s.val, khz := s.khz, puen := s.puen, txb := s.txb }
    | .stop => t = { t with
        dev := s.dev, rega := s.rega, len := s.len, val := s.val, khz := s.khz, puen := s.puen, idx := s.idx
        retry := s.retry, st := s.st, err := s.err, dir := s.dir, rxb := s.rxb, txb := s.txb }
    | .reset => t = { t with
        dev := s.dev, rega := s.rega, len := s.len, val := s.val, khz := s.khz, puen := s.puen, idx := s.idx
        retry := s.retry, poll := s.poll, st := s.st, err := s.err, dir := s.dir, rxb := s.rxb, txb := s.txb }

/-- R51: the parameters are fixed for a run: no step changes them. -/
def Obligations.ConfigFixed : Prop := ∀ s t : State, step s = .next t → t.cfg = s.cfg

/-- R190, R34, R35: no command but CONFIGURE changes DIV or PU. -/
def Obligations.OnlyConfigureSetsDivAndPu : Prop :=
  ∀ (i : Instr) (s t : State), (∀ khz pu, i ≠ .configure khz pu) → exec i s = .next t → t.div = s.div ∧ t.pu = s.pu

/-- R46, R14: a command that returns a status writes RESULT exactly once, at its end: its one `finish` is the newest event and
carries the code that RESULT holds; RESULT may be read from then on, which the model keeps in its own flag (log 5).
CONFIGURE and RESET end with `finish()` and leave RESULT, and whether it may be read, as they were. -/
def Obligations.ResultWrittenByStatusCommands : Prop :=
  ∀ (i : Instr) (s t : State), exec i s = .next t →
    ∃ evs, finishes evs = [] ∧
      match i with
      | .configure _ _ =>
        t.trace = .finished none :: (evs ++ s.trace) ∧ t.result = s.result ∧ t.resultValid = s.resultValid
      | .reset =>
        t.trace = .finished none :: (evs ++ s.trace) ∧ t.result = s.result ∧ t.resultValid = s.resultValid
      | .beginTrans _ => t.trace = .finished (some t.result) :: (evs ++ s.trace) ∧ t.resultValid = true
      | .send _ => t.trace = .finished (some t.result) :: (evs ++ s.trace) ∧ t.resultValid = true
      | .wrblk _ _ _ => t.trace = .finished (some t.result) :: (evs ++ s.trace) ∧ t.resultValid = true
      | .rdblk _ _ _ => t.trace = .finished (some t.result) :: (evs ++ s.trace) ∧ t.resultValid = true
      | .stop => t.trace = .finished (some t.result) :: (evs ++ s.trace) ∧ t.resultValid = true

/-- R52, R320: after power-on reset PH is IDLE, CTRL and FLAG are 0, the parameters meet their constraints, no byte of BUF holds
a value and RESULT may not be read. -/
def Obligations.ResetState : Prop :=
  State.reset.ph = .idle ∧ State.reset.en = false ∧ State.reset.sta = false ∧ State.reset.sto = false ∧
    State.reset.ea = false ∧ State.reset.flag = false ∧ State.reset.cfg.wf = true ∧
    (∀ a, Memory.read State.reset.buf a = none) ∧ State.reset.resultValid = false ∧ State.reset.statWritten = false

/-- R321, R336 (a): with HOST doing nothing an idle block makes no access; PERIPH alone may step. -/
def Obligations.IdleStep : Prop :=
  ∀ s : State, s.ph = .idle → s.host = [] → step s = .next (periphTurn s)

/-- The port events tell what RESULT holds: after reset no status-returning command has completed and RESULT may not be read
(R46, R52). The list of port events and the flag are the model's (log 5, log 15). -/
def Obligations.ResultHistoryReset : Prop := State.reset.ResultHistory ∧ lastStatus State.reset.trace = none

/-- R46, R334: RESULT is the status of the last completed command that returned one, and may be read exactly if there is one:
every step keeps this, of a whole command, of one access or of HOST; CONFIGURE, RESET and an access in the middle of a command
leave RESULT as it was. The list of port events and the flag are the model's (log 5, log 15). -/
def Obligations.ResultHistoryStep : Prop := ∀ s t : State, s.ResultHistory → step s = .next t → t.ResultHistory

/-- R46: the host reads RESULT while the block is idle and after a status-returning command has completed; before, the read
faults; while the block is busy it is refused. Where the port events tell what RESULT holds (ResultHistoryStep), an idle block
answers the status of the last completed command that returned one, and the fault is raised exactly where none has completed. -/
def Obligations.ResultRead : Prop :=
  ∀ (s : State) (rest : List HostEvent), s.host = .resultRead :: rest →
    (s.ph = .idle → s.resultValid = true →
      step s = .next { s with host := rest, trace := .hostResult s.result :: s.trace }) ∧
    (s.ph = .idle → s.resultValid = false → step s = .fault .resultNoValue) ∧
    (s.ph ≠ .idle → step s = .refused .hostNotIdle) ∧
    (s.ResultHistory →
      (∀ c, s.ph = .idle → lastStatus s.trace = some c →
        step s = .next { s with host := rest, trace := .hostResult c :: s.trace }) ∧
      (step s = .fault .resultNoValue ↔ s.ph = .idle ∧ lastStatus s.trace = none))

/-- R48, R331: the host writes its buffer while the block is idle: the byte reads back, every other byte and every register is
unchanged; while the block is busy the write is refused. -/
def Obligations.HostBufferWrite : Prop :=
  ∀ (i v : Byte) (s : State) (rest : List HostEvent), s.host = .bufWrite i v :: rest →
    (s.ph = .idle → ∃ t, step s = .next t ∧ Memory.read t.buf i.toNat = some v ∧
      (∀ a, a ≠ i.toNat → Memory.read t.buf a = Memory.read s.buf a) ∧
      t = { s with buf := t.buf, host := rest, trace := .hostBufWrite i.toNat v :: s.trace }) ∧
    (s.ph ≠ .idle → step s = .refused .hostNotIdle)

/-- The invariant holds after reset. -/
def Obligations.InvReset : Prop := State.reset.Inv

/-- Every step, of a whole command, of one access or of HOST, keeps the invariant: BUF stays canonical, FLAG is 0 while the
peripheral is disabled (R82), FLAG = 1 says that STAT was written (R74), PH, SEG, IDX, POLL, RETRY and DIR stay consistent
(R41 to R45, R125), OPC names the running command (R45). -/
def Obligations.InvStep : Prop := ∀ s t : State, s.Inv → step s = .next t → t.Inv

/-- R45: no state that meets the invariant stops for want of a position. -/
def Obligations.AlwaysAPosition : Prop :=
  ∀ (s : State) (ph : Phase) (seg : Seg), s.Inv → step s ≠ .fault (.noPosition ph seg)
end

