-- ==== Sys2Proof/Laws/Memory.lean ====
section
/-! SUPPORT. The laws of BUF: a read after a write, and the canonical form that every memory operation keeps. -/

namespace Sys2Proof.Machine

theorem Memory.read_nil (a : Nat) : Memory.read [] a = none := rfl

/-- A read at the written index gives the byte written. -/
theorem Memory.read_write_same (m : Memory) (a : Nat) (v : Byte) : Memory.read (Memory.write m a v) a = some v := by
  induction m with
  | nil => simp [Memory.write, Memory.read]
  | cons c m ih =>
    simp only [Memory.write]
    split
    · simp [Memory.read]
    · split
      · simp [Memory.read]
      · rename_i h1 h2
        simp only [Memory.read, ih, if_neg (Ne.symm h2)]

/-- A write leaves every other index as it was. -/
theorem Memory.read_write_other (m : Memory) (a b : Nat) (v : Byte) (h : b ≠ a) :
    Memory.read (Memory.write m a v) b = Memory.read m b := by
  induction m with
  | nil => simp [Memory.write, Memory.read, h.symm]
  | cons c m ih =>
    simp only [Memory.write]
    split
    · simp [Memory.read, h.symm]
    · split
      · rename_i h2
        simp [Memory.read, h.symm, ← h2]
      · simp [Memory.read, ih]

/-- An index a write lists was listed before or is the written one. -/
theorem Memory.write_index (m : Memory) (a : Nat) (v : Byte) (c : Host.Cell) (h : c ∈ Memory.write m a v) :
    c.1 = a ∨ c ∈ m := by
  induction m with
  | nil => simp_all [Memory.write]
  | cons d m ih =>
    simp only [Memory.write] at h
    split at h
    · simp only [List.mem_cons] at h ⊢
      rcases h with rfl | h
      · exact .inl rfl
      · exact .inr h
    · split at h
      · simp only [List.mem_cons] at h ⊢
        rcases h with rfl | h
        · exact .inl rfl
        · exact .inr (.inr h)
      · simp only [List.mem_cons] at h ⊢
        rcases h with rfl | h
        · exact .inr (.inl rfl)
        · exact (ih h).imp id .inr

/-- A write keeps the indices strictly rising. -/
theorem Memory.write_pairwise (m : Memory) (a : Nat) (v : Byte) (h : m.Pairwise (fun x y => x.1 < y.1)) :
    (Memory.write m a v).Pairwise (fun x y => x.1 < y.1) := by
  induction m with
  | nil => simp [Memory.write]
  | cons c m ih =>
    rw [List.pairwise_cons] at h
    simp only [Memory.write]
    split
    · rename_i h1
      refine List.pairwise_cons.2 ⟨?_, List.pairwise_cons.2 h⟩
      intro d hd
      rcases List.mem_cons.1 hd with rfl | hd
      · exact h1
      · exact h1.trans (h.1 d hd)
    · split
      · rename_i h2
        exact List.pairwise_cons.2 ⟨fun d hd => h2 ▸ h.1 d hd, h.2⟩
      · rename_i h1 h2
        refine List.pairwise_cons.2 ⟨fun d hd => ?_, ih h.2⟩
        rcases Memory.write_index m a v d hd with hd | hd
        · omega
        · exact h.1 d hd

/-- A write below 256 keeps the canonical form. -/
theorem Memory.write_wf (m : Memory) (a : Nat) (v : Byte) (ha : a < 256) (h : Memory.wf m) :
    Memory.wf (Memory.write m a v) :=
  ⟨Memory.write_pairwise m a v h.1, fun c hc => (Memory.write_index m a v c hc).elim (fun e => e ▸ ha) (h.2 c)⟩

/-- The host's write of a byte keeps the canonical form. -/
theorem hostBufWrite_wf (i v : Byte) (s t : State) (h : hostBufWrite i v s = .next t) (hw : Memory.wf s.buf) :
    Memory.wf t.buf := by
  simp only [hostBufWrite] at h
  split at h
  · cases h
  · cases h
    exact Memory.write_wf _ _ _ i.isLt hw

theorem reset_buf_wf : Memory.wf State.reset.buf := by decide

end Sys2Proof.Machine
end

