-- ==== Sys2Proof/Laws/State.lean ====
section
/-! SUPPORT. The field lemmas of the primitive updates of State: one lemma per field per update, true by rfl, so that no
later proof unfolds a record update. -/

namespace Sys2Proof.Machine

variable (s : State)

/-! ## logEvent -/

@[simp] theorem logEvent_en (e : PortEvent) : (logEvent e s).en = s.en := rfl
@[simp] theorem logEvent_sta (e : PortEvent) : (logEvent e s).sta = s.sta := rfl
@[simp] theorem logEvent_sto (e : PortEvent) : (logEvent e s).sto = s.sto := rfl
@[simp] theorem logEvent_ea (e : PortEvent) : (logEvent e s).ea = s.ea := rfl
@[simp] theorem logEvent_flag (e : PortEvent) : (logEvent e s).flag = s.flag := rfl
@[simp] theorem logEvent_stat (e : PortEvent) : (logEvent e s).stat = s.stat := rfl
@[simp] theorem logEvent_statWritten (e : PortEvent) : (logEvent e s).statWritten = s.statWritten := rfl
@[simp] theorem logEvent_data (e : PortEvent) : (logEvent e s).data = s.data := rfl
@[simp] theorem logEvent_div (e : PortEvent) : (logEvent e s).div = s.div := rfl
@[simp] theorem logEvent_pu (e : PortEvent) : (logEvent e s).pu = s.pu := rfl
@[simp] theorem logEvent_opc (e : PortEvent) : (logEvent e s).opc = s.opc := rfl
@[simp] theorem logEvent_dev (e : PortEvent) : (logEvent e s).dev = s.dev := rfl
@[simp] theorem logEvent_rega (e : PortEvent) : (logEvent e s).rega = s.rega := rfl
@[simp] theorem logEvent_len (e : PortEvent) : (logEvent e s).len = s.len := rfl
@[simp] theorem logEvent_val (e : PortEvent) : (logEvent e s).val = s.val := rfl
@[simp] theorem logEvent_khz (e : PortEvent) : (logEvent e s).khz = s.khz := rfl
@[simp] theorem logEvent_puen (e : PortEvent) : (logEvent e s).puen = s.puen := rfl
@[simp] theorem logEvent_idx (e : PortEvent) : (logEvent e s).idx = s.idx := rfl
@[simp] theorem logEvent_retry (e : PortEvent) : (logEvent e s).retry = s.retry := rfl
@[simp] theorem logEvent_poll (e : PortEvent) : (logEvent e s).poll = s.poll := rfl
@[simp] theorem logEvent_st (e : PortEvent) : (logEvent e s).st = s.st := rfl
@[simp] theorem logEvent_err (e : PortEvent) : (logEvent e s).err = s.err := rfl
@[simp] theorem logEvent_dir (e : PortEvent) : (logEvent e s).dir = s.dir := rfl
@[simp] theorem logEvent_rxb (e : PortEvent) : (logEvent e s).rxb = s.rxb := rfl
@[simp] theorem logEvent_txb (e : PortEvent) : (logEvent e s).txb = s.txb := rfl
@[simp] theorem logEvent_ph (e : PortEvent) : (logEvent e s).ph = s.ph := rfl
@[simp] theorem logEvent_seg (e : PortEvent) : (logEvent e s).seg = s.seg := rfl
@[simp] theorem logEvent_result (e : PortEvent) : (logEvent e s).result = s.result := rfl
@[simp] theorem logEvent_resultValid (e : PortEvent) : (logEvent e s).resultValid = s.resultValid := rfl
@[simp] theorem logEvent_buf (e : PortEvent) : (logEvent e s).buf = s.buf := rfl
@[simp] theorem logEvent_cfg (e : PortEvent) : (logEvent e s).cfg = s.cfg := rfl
@[simp] theorem logEvent_host (e : PortEvent) : (logEvent e s).host = s.host := rfl
@[simp] theorem logEvent_script (e : PortEvent) : (logEvent e s).script = s.script := rfl
@[simp] theorem logEvent_clock (e : PortEvent) : (logEvent e s).clock = s.clock := rfl
@[simp] theorem logEvent_draws (e : PortEvent) : (logEvent e s).draws = s.draws := rfl
@[simp] theorem logEvent_trace (e : PortEvent) : (logEvent e s).trace = e :: s.trace := rfl

/-! ## periphStep -/

@[simp] theorem periphStep_en (x y : Byte) : (periphStep x y s).en = s.en := rfl
@[simp] theorem periphStep_sta (x y : Byte) : (periphStep x y s).sta = s.sta := rfl
@[simp] theorem periphStep_sto (x y : Byte) : (periphStep x y s).sto = s.sto := rfl
@[simp] theorem periphStep_ea (x y : Byte) : (periphStep x y s).ea = s.ea := rfl
@[simp] theorem periphStep_flag (x y : Byte) : (periphStep x y s).flag = true := rfl
@[simp] theorem periphStep_stat (x y : Byte) : (periphStep x y s).stat = x := rfl
@[simp] theorem periphStep_statWritten (x y : Byte) : (periphStep x y s).statWritten = true := rfl
@[simp] theorem periphStep_data (x y : Byte) : (periphStep x y s).data = y := rfl
@[simp] theorem periphStep_div (x y : Byte) : (periphStep x y s).div = s.div := rfl
@[simp] theorem periphStep_pu (x y : Byte) : (periphStep x y s).pu = s.pu := rfl
@[simp] theorem periphStep_opc (x y : Byte) : (periphStep x y s).opc = s.opc := rfl
@[simp] theorem periphStep_dev (x y : Byte) : (periphStep x y s).dev = s.dev := rfl
@[simp] theorem periphStep_rega (x y : Byte) : (periphStep x y s).rega = s.rega := rfl
@[simp] theorem periphStep_len (x y : Byte) : (periphStep x y s).len = s.len := rfl
@[simp] theorem periphStep_val (x y : Byte) : (periphStep x y s).val = s.val := rfl
@[simp] theorem periphStep_khz (x y : Byte) : (periphStep x y s).khz = s.khz := rfl
@[simp] theorem periphStep_puen (x y : Byte) : (periphStep x y s).puen = s.puen := rfl
@[simp] theorem periphStep_idx (x y : Byte) : (periphStep x y s).idx = s.idx := rfl
@[simp] theorem periphStep_retry (x y : Byte) : (periphStep x y s).retry = s.retry := rfl
@[simp] theorem periphStep_poll (x y : Byte) : (periphStep x y s).poll = s.poll := rfl
@[simp] theorem periphStep_st (x y : Byte) : (periphStep x y s).st = s.st := rfl
@[simp] theorem periphStep_err (x y : Byte) : (periphStep x y s).err = s.err := rfl
@[simp] theorem periphStep_dir (x y : Byte) : (periphStep x y s).dir = s.dir := rfl
@[simp] theorem periphStep_rxb (x y : Byte) : (periphStep x y s).rxb = s.rxb := rfl
@[simp] theorem periphStep_txb (x y : Byte) : (periphStep x y s).txb = s.txb := rfl
@[simp] theorem periphStep_ph (x y : Byte) : (periphStep x y s).ph = s.ph := rfl
@[simp] theorem periphStep_seg (x y : Byte) : (periphStep x y s).seg = s.seg := rfl
@[simp] theorem periphStep_result (x y : Byte) : (periphStep x y s).result = s.result := rfl
@[simp] theorem periphStep_resultValid (x y : Byte) : (periphStep x y s).resultValid = s.resultValid := rfl
@[simp] theorem periphStep_buf (x y : Byte) : (periphStep x y s).buf = s.buf := rfl
@[simp] theorem periphStep_cfg (x y : Byte) : (periphStep x y s).cfg = s.cfg := rfl
@[simp] theorem periphStep_host (x y : Byte) : (periphStep x y s).host = s.host := rfl
@[simp] theorem periphStep_script (x y : Byte) : (periphStep x y s).script = s.script := rfl
@[simp] theorem periphStep_clock (x y : Byte) : (periphStep x y s).clock = s.clock := rfl
@[simp] theorem periphStep_draws (x y : Byte) : (periphStep x y s).draws = s.draws := rfl
@[simp] theorem periphStep_trace (x y : Byte) : (periphStep x y s).trace = s.trace := rfl

/-! ## writeCtrl -/

@[simp] theorem writeCtrl_en (w : Byte) : (writeCtrl w s).en = w.getLsbD s.cfg.bits.bEn := rfl
@[simp] theorem writeCtrl_sta (w : Byte) : (writeCtrl w s).sta = w.getLsbD s.cfg.bits.bSta := rfl
@[simp] theorem writeCtrl_sto (w : Byte) : (writeCtrl w s).sto = w.getLsbD s.cfg.bits.bSto := rfl
@[simp] theorem writeCtrl_ea (w : Byte) : (writeCtrl w s).ea = w.getLsbD s.cfg.bits.bEa := rfl
@[simp] theorem writeCtrl_flag (w : Byte) : (writeCtrl w s).flag = flagAfterCtrlWrite s.cfg.bits w s.flag := rfl
@[simp] theorem writeCtrl_stat (w : Byte) : (writeCtrl w s).stat = s.stat := rfl
@[simp] theorem writeCtrl_statWritten (w : Byte) : (writeCtrl w s).statWritten = s.statWritten := rfl
@[simp] theorem writeCtrl_data (w : Byte) : (writeCtrl w s).data = s.data := rfl
@[simp] theorem writeCtrl_div (w : Byte) : (writeCtrl w s).div = s.div := rfl
@[simp] theorem writeCtrl_pu (w : Byte) : (writeCtrl w s).pu = s.pu := rfl
@[simp] theorem writeCtrl_opc (w : Byte) : (writeCtrl w s).opc = s.opc := rfl
@[simp] theorem writeCtrl_dev (w : Byte) : (writeCtrl w s).dev = s.dev := rfl
@[simp] theorem writeCtrl_rega (w : Byte) : (writeCtrl w s).rega = s.rega := rfl
@[simp] theorem writeCtrl_len (w : Byte) : (writeCtrl w s).len = s.len := rfl
@[simp] theorem writeCtrl_val (w : Byte) : (writeCtrl w s).val = s.val := rfl
@[simp] theorem writeCtrl_khz (w : Byte) : (writeCtrl w s).khz = s.khz := rfl
@[simp] theorem writeCtrl_puen (w : Byte) : (writeCtrl w s).puen = s.puen := rfl
@[simp] theorem writeCtrl_idx (w : Byte) : (writeCtrl w s).idx = s.idx := rfl
@[simp] theorem writeCtrl_retry (w : Byte) : (writeCtrl w s).retry = s.retry := rfl
@[simp] theorem writeCtrl_poll (w : Byte) : (writeCtrl w s).poll = s.poll := rfl
@[simp] theorem writeCtrl_st (w : Byte) : (writeCtrl w s).st = s.st := rfl
@[simp] theorem writeCtrl_err (w : Byte) : (writeCtrl w s).err = s.err := rfl
@[simp] theorem writeCtrl_dir (w : Byte) : (writeCtrl w s).dir = s.dir := rfl
@[simp] theorem writeCtrl_rxb (w : Byte) : (writeCtrl w s).rxb = s.rxb := rfl
@[simp] theorem writeCtrl_txb (w : Byte) : (writeCtrl w s).txb = s.txb := rfl
@[simp] theorem writeCtrl_ph (w : Byte) : (writeCtrl w s).ph = s.ph := rfl
@[simp] theorem writeCtrl_seg (w : Byte) : (writeCtrl w s).seg = s.seg := rfl
@[simp] theorem writeCtrl_result (w : Byte) : (writeCtrl w s).result = s.result := rfl
@[simp] theorem writeCtrl_resultValid (w : Byte) : (writeCtrl w s).resultValid = s.resultValid := rfl
@[simp] theorem writeCtrl_buf (w : Byte) : (writeCtrl w s).buf = s.buf := rfl
@[simp] theorem writeCtrl_cfg (w : Byte) : (writeCtrl w s).cfg = s.cfg := rfl
@[simp] theorem writeCtrl_host (w : Byte) : (writeCtrl w s).host = s.host := rfl
@[simp] theorem writeCtrl_script (w : Byte) : (writeCtrl w s).script = s.script := rfl
@[simp] theorem writeCtrl_clock (w : Byte) : (writeCtrl w s).clock = s.clock := rfl
@[simp] theorem writeCtrl_draws (w : Byte) : (writeCtrl w s).draws = s.draws := rfl
@[simp] theorem writeCtrl_trace (w : Byte) : (writeCtrl w s).trace = .ioWrite .ctrl w :: s.trace := rfl

/-! ## writeData -/

@[simp] theorem writeData_en (v : Byte) : (writeData v s).en = s.en := rfl
@[simp] theorem writeData_sta (v : Byte) : (writeData v s).sta = s.sta := rfl
@[simp] theorem writeData_sto (v : Byte) : (writeData v s).sto = s.sto := rfl
@[simp] theorem writeData_ea (v : Byte) : (writeData v s).ea = s.ea := rfl
@[simp] theorem writeData_flag (v : Byte) : (writeData v s).flag = s.flag := rfl
@[simp] theorem writeData_stat (v : Byte) : (writeData v s).stat = s.stat := rfl
@[simp] theorem writeData_statWritten (v : Byte) : (writeData v s).statWritten = s.statWritten := rfl
@[simp] theorem writeData_data (v : Byte) : (writeData v s).data = v := rfl
@[simp] theorem writeData_div (v : Byte) : (writeData v s).div = s.div := rfl
@[simp] theorem writeData_pu (v : Byte) : (writeData v s).pu = s.pu := rfl
@[simp] theorem writeData_opc (v : Byte) : (writeData v s).opc = s.opc := rfl
@[simp] theorem writeData_dev (v : Byte) : (writeData v s).dev = s.dev := rfl
@[simp] theorem writeData_rega (v : Byte) : (writeData v s).rega = s.rega := rfl
@[simp] theorem writeData_len (v : Byte) : (writeData v s).len = s.len := rfl
@[simp] theorem writeData_val (v : Byte) : (writeData v s).val = s.val := rfl
@[simp] theorem writeData_khz (v : Byte) : (writeData v s).khz = s.khz := rfl
@[simp] theorem writeData_puen (v : Byte) : (writeData v s).puen = s.puen := rfl
@[simp] theorem writeData_idx (v : Byte) : (writeData v s).idx = s.idx := rfl
@[simp] theorem writeData_retry (v : Byte) : (writeData v s).retry = s.retry := rfl
@[simp] theorem writeData_poll (v : Byte) : (writeData v s).poll = s.poll := rfl
@[simp] theorem writeData_st (v : Byte) : (writeData v s).st = s.st := rfl
@[simp] theorem writeData_err (v : Byte) : (writeData v s).err = s.err := rfl
@[simp] theorem writeData_dir (v : Byte) : (writeData v s).dir = s.dir := rfl
@[simp] theorem writeData_rxb (v : Byte) : (writeData v s).rxb = s.rxb := rfl
@[simp] theorem writeData_txb (v : Byte) : (writeData v s).txb = s.txb := rfl
@[simp] theorem writeData_ph (v : Byte) : (writeData v s).ph = s.ph := rfl
@[simp] theorem writeData_seg (v : Byte) : (writeData v s).seg = s.seg := rfl
@[simp] theorem writeData_result (v : Byte) : (writeData v s).result = s.result := rfl
@[simp] theorem writeData_resultValid (v : Byte) : (writeData v s).resultValid = s.resultValid := rfl
@[simp] theorem writeData_buf (v : Byte) : (writeData v s).buf = s.buf := rfl
@[simp] theorem writeData_cfg (v : Byte) : (writeData v s).cfg = s.cfg := rfl
@[simp] theorem writeData_host (v : Byte) : (writeData v s).host = s.host := rfl
@[simp] theorem writeData_script (v : Byte) : (writeData v s).script = s.script := rfl
@[simp] theorem writeData_clock (v : Byte) : (writeData v s).clock = s.clock := rfl
@[simp] theorem writeData_draws (v : Byte) : (writeData v s).draws = s.draws := rfl
@[simp] theorem writeData_trace (v : Byte) : (writeData v s).trace = .ioWrite .data v :: s.trace := rfl

/-! ## writeDiv -/

@[simp] theorem writeDiv_en (v : Byte) : (writeDiv v s).en = s.en := rfl
@[simp] theorem writeDiv_sta (v : Byte) : (writeDiv v s).sta = s.sta := rfl
@[simp] theorem writeDiv_sto (v : Byte) : (writeDiv v s).sto = s.sto := rfl
@[simp] theorem writeDiv_ea (v : Byte) : (writeDiv v s).ea = s.ea := rfl
@[simp] theorem writeDiv_flag (v : Byte) : (writeDiv v s).flag = s.flag := rfl
@[simp] theorem writeDiv_stat (v : Byte) : (writeDiv v s).stat = s.stat := rfl
@[simp] theorem writeDiv_statWritten (v : Byte) : (writeDiv v s).statWritten = s.statWritten := rfl
@[simp] theorem writeDiv_data (v : Byte) : (writeDiv v s).data = s.data := rfl
@[simp] theorem writeDiv_div (v : Byte) : (writeDiv v s).div = v := rfl
@[simp] theorem writeDiv_pu (v : Byte) : (writeDiv v s).pu = s.pu := rfl
@[simp] theorem writeDiv_opc (v : Byte) : (writeDiv v s).opc = s.opc := rfl
@[simp] theorem writeDiv_dev (v : Byte) : (writeDiv v s).dev = s.dev := rfl
@[simp] theorem writeDiv_rega (v : Byte) : (writeDiv v s).rega = s.rega := rfl
@[simp] theorem writeDiv_len (v : Byte) : (writeDiv v s).len = s.len := rfl
@[simp] theorem writeDiv_val (v : Byte) : (writeDiv v s).val = s.val := rfl
@[simp] theorem writeDiv_khz (v : Byte) : (writeDiv v s).khz = s.khz := rfl
@[simp] theorem writeDiv_puen (v : Byte) : (writeDiv v s).puen = s.puen := rfl
@[simp] theorem writeDiv_idx (v : Byte) : (writeDiv v s).idx = s.idx := rfl
@[simp] theorem writeDiv_retry (v : Byte) : (writeDiv v s).retry = s.retry := rfl
@[simp] theorem writeDiv_poll (v : Byte) : (writeDiv v s).poll = s.poll := rfl
@[simp] theorem writeDiv_st (v : Byte) : (writeDiv v s).st = s.st := rfl
@[simp] theorem writeDiv_err (v : Byte) : (writeDiv v s).err = s.err := rfl
@[simp] theorem writeDiv_dir (v : Byte) : (writeDiv v s).dir = s.dir := rfl
@[simp] theorem writeDiv_rxb (v : Byte) : (writeDiv v s).rxb = s.rxb := rfl
@[simp] theorem writeDiv_txb (v : Byte) : (writeDiv v s).txb = s.txb := rfl
@[simp] theorem writeDiv_ph (v : Byte) : (writeDiv v s).ph = s.ph := rfl
@[simp] theorem writeDiv_seg (v : Byte) : (writeDiv v s).seg = s.seg := rfl
@[simp] theorem writeDiv_result (v : Byte) : (writeDiv v s).result = s.result := rfl
@[simp] theorem writeDiv_resultValid (v : Byte) : (writeDiv v s).resultValid = s.resultValid := rfl
@[simp] theorem writeDiv_buf (v : Byte) : (writeDiv v s).buf = s.buf := rfl
@[simp] theorem writeDiv_cfg (v : Byte) : (writeDiv v s).cfg = s.cfg := rfl
@[simp] theorem writeDiv_host (v : Byte) : (writeDiv v s).host = s.host := rfl
@[simp] theorem writeDiv_script (v : Byte) : (writeDiv v s).script = s.script := rfl
@[simp] theorem writeDiv_clock (v : Byte) : (writeDiv v s).clock = s.clock := rfl
@[simp] theorem writeDiv_draws (v : Byte) : (writeDiv v s).draws = s.draws := rfl
@[simp] theorem writeDiv_trace (v : Byte) : (writeDiv v s).trace = .ioWrite .div v :: s.trace := rfl

/-! ## writePullup -/

@[simp] theorem writePullup_en (v : Byte) : (writePullup v s).en = s.en := rfl
@[simp] theorem writePullup_sta (v : Byte) : (writePullup v s).sta = s.sta := rfl
@[simp] theorem writePullup_sto (v : Byte) : (writePullup v s).sto = s.sto := rfl
@[simp] theorem writePullup_ea (v : Byte) : (writePullup v s).ea = s.ea := rfl
@[simp] theorem writePullup_flag (v : Byte) : (writePullup v s).flag = s.flag := rfl
@[simp] theorem writePullup_stat (v : Byte) : (writePullup v s).stat = s.stat := rfl
@[simp] theorem writePullup_statWritten (v : Byte) : (writePullup v s).statWritten = s.statWritten := rfl
@[simp] theorem writePullup_data (v : Byte) : (writePullup v s).data = s.data := rfl
@[simp] theorem writePullup_div (v : Byte) : (writePullup v s).div = s.div := rfl
@[simp] theorem writePullup_pu (v : Byte) : (writePullup v s).pu = v.getLsbD 0 := rfl
@[simp] theorem writePullup_opc (v : Byte) : (writePullup v s).opc = s.opc := rfl
@[simp] theorem writePullup_dev (v : Byte) : (writePullup v s).dev = s.dev := rfl
@[simp] theorem writePullup_rega (v : Byte) : (writePullup v s).rega = s.rega := rfl
@[simp] theorem writePullup_len (v : Byte) : (writePullup v s).len = s.len := rfl
@[simp] theorem writePullup_val (v : Byte) : (writePullup v s).val = s.val := rfl
@[simp] theorem writePullup_khz (v : Byte) : (writePullup v s).khz = s.khz := rfl
@[simp] theorem writePullup_puen (v : Byte) : (writePullup v s).puen = s.puen := rfl
@[simp] theorem writePullup_idx (v : Byte) : (writePullup v s).idx = s.idx := rfl
@[simp] theorem writePullup_retry (v : Byte) : (writePullup v s).retry = s.retry := rfl
@[simp] theorem writePullup_poll (v : Byte) : (writePullup v s).poll = s.poll := rfl
@[simp] theorem writePullup_st (v : Byte) : (writePullup v s).st = s.st := rfl
@[simp] theorem writePullup_err (v : Byte) : (writePullup v s).err = s.err := rfl
@[simp] theorem writePullup_dir (v : Byte) : (writePullup v s).dir = s.dir := rfl
@[simp] theorem writePullup_rxb (v : Byte) : (writePullup v s).rxb = s.rxb := rfl
@[simp] theorem writePullup_txb (v : Byte) : (writePullup v s).txb = s.txb := rfl
@[simp] theorem writePullup_ph (v : Byte) : (writePullup v s).ph = s.ph := rfl
@[simp] theorem writePullup_seg (v : Byte) : (writePullup v s).seg = s.seg := rfl
@[simp] theorem writePullup_result (v : Byte) : (writePullup v s).result = s.result := rfl
@[simp] theorem writePullup_resultValid (v : Byte) : (writePullup v s).resultValid = s.resultValid := rfl
@[simp] theorem writePullup_buf (v : Byte) : (writePullup v s).buf = s.buf := rfl
@[simp] theorem writePullup_cfg (v : Byte) : (writePullup v s).cfg = s.cfg := rfl
@[simp] theorem writePullup_host (v : Byte) : (writePullup v s).host = s.host := rfl
@[simp] theorem writePullup_script (v : Byte) : (writePullup v s).script = s.script := rfl
@[simp] theorem writePullup_clock (v : Byte) : (writePullup v s).clock = s.clock := rfl
@[simp] theorem writePullup_draws (v : Byte) : (writePullup v s).draws = s.draws := rfl
@[simp] theorem writePullup_trace (v : Byte) : (writePullup v s).trace = .ioWrite .pullup v :: s.trace := rfl

/-! ## finish -/

@[simp] theorem finish_en (c : Byte) : (finish c s).en = s.en := rfl
@[simp] theorem finish_sta (c : Byte) : (finish c s).sta = s.sta := rfl
@[simp] theorem finish_sto (c : Byte) : (finish c s).sto = s.sto := rfl
@[simp] theorem finish_ea (c : Byte) : (finish c s).ea = s.ea := rfl
@[simp] theorem finish_flag (c : Byte) : (finish c s).flag = s.flag := rfl
@[simp] theorem finish_stat (c : Byte) : (finish c s).stat = s.stat := rfl
@[simp] theorem finish_statWritten (c : Byte) : (finish c s).statWritten = s.statWritten := rfl
@[simp] theorem finish_data (c : Byte) : (finish c s).data = s.data := rfl
@[simp] theorem finish_div (c : Byte) : (finish c s).div = s.div := rfl
@[simp] theorem finish_pu (c : Byte) : (finish c s).pu = s.pu := rfl
@[simp] theorem finish_opc (c : Byte) : (finish c s).opc = s.opc := rfl
@[simp] theorem finish_dev (c : Byte) : (finish c s).dev = s.dev := rfl
@[simp] theorem finish_rega (c : Byte) : (finish c s).rega = s.rega := rfl
@[simp] theorem finish_len (c : Byte) : (finish c s).len = s.len := rfl
@[simp] theorem finish_val (c : Byte) : (finish c s).val = s.val := rfl
@[simp] theorem finish_khz (c : Byte) : (finish c s).khz = s.khz := rfl
@[simp] theorem finish_puen (c : Byte) : (finish c s).puen = s.puen := rfl
@[simp] theorem finish_idx (c : Byte) : (finish c s).idx = s.idx := rfl
@[simp] theorem finish_retry (c : Byte) : (finish c s).retry = s.retry := rfl
@[simp] theorem finish_poll (c : Byte) : (finish c s).poll = s.poll := rfl
@[simp] theorem finish_st (c : Byte) : (finish c s).st = s.st := rfl
@[simp] theorem finish_err (c : Byte) : (finish c s).err = s.err := rfl
@[simp] theorem finish_dir (c : Byte) : (finish c s).dir = s.dir := rfl
@[simp] theorem finish_rxb (c : Byte) : (finish c s).rxb = s.rxb := rfl
@[simp] theorem finish_txb (c : Byte) : (finish c s).txb = s.txb := rfl
@[simp] theorem finish_ph (c : Byte) : (finish c s).ph = .idle := rfl
@[simp] theorem finish_seg (c : Byte) : (finish c s).seg = s.seg := rfl
@[simp] theorem finish_result (c : Byte) : (finish c s).result = c := rfl
@[simp] theorem finish_resultValid (c : Byte) : (finish c s).resultValid = true := rfl
@[simp] theorem finish_buf (c : Byte) : (finish c s).buf = s.buf := rfl
@[simp] theorem finish_cfg (c : Byte) : (finish c s).cfg = s.cfg := rfl
@[simp] theorem finish_host (c : Byte) : (finish c s).host = s.host := rfl
@[simp] theorem finish_script (c : Byte) : (finish c s).script = s.script := rfl
@[simp] theorem finish_clock (c : Byte) : (finish c s).clock = s.clock := rfl
@[simp] theorem finish_draws (c : Byte) : (finish c s).draws = s.draws := rfl
@[simp] theorem finish_trace (c : Byte) : (finish c s).trace = .finished (some c) :: s.trace := rfl

/-! ## finishQuiet -/

@[simp] theorem finishQuiet_en : (finishQuiet s).en = s.en := rfl
@[simp] theorem finishQuiet_sta : (finishQuiet s).sta = s.sta := rfl
@[simp] theorem finishQuiet_sto : (finishQuiet s).sto = s.sto := rfl
@[simp] theorem finishQuiet_ea : (finishQuiet s).ea = s.ea := rfl
@[simp] theorem finishQuiet_flag : (finishQuiet s).flag = s.flag := rfl
@[simp] theorem finishQuiet_stat : (finishQuiet s).stat = s.stat := rfl
@[simp] theorem finishQuiet_statWritten : (finishQuiet s).statWritten = s.statWritten := rfl
@[simp] theorem finishQuiet_data : (finishQuiet s).data = s.data := rfl
@[simp] theorem finishQuiet_div : (finishQuiet s).div = s.div := rfl
@[simp] theorem finishQuiet_pu : (finishQuiet s).pu = s.pu := rfl
@[simp] theorem finishQuiet_opc : (finishQuiet s).opc = s.opc := rfl
@[simp] theorem finishQuiet_dev : (finishQuiet s).dev = s.dev := rfl
@[simp] theorem finishQuiet_rega : (finishQuiet s).rega = s.rega := rfl
@[simp] theorem finishQuiet_len : (finishQuiet s).len = s.len := rfl
@[simp] theorem finishQuiet_val : (finishQuiet s).val = s.val := rfl
@[simp] theorem finishQuiet_khz : (finishQuiet s).khz = s.khz := rfl
@[simp] theorem finishQuiet_puen : (finishQuiet s).puen = s.puen := rfl
@[simp] theorem finishQuiet_idx : (finishQuiet s).idx = s.idx := rfl
@[simp] theorem finishQuiet_retry : (finishQuiet s).retry = s.retry := rfl
@[simp] theorem finishQuiet_poll : (finishQuiet s).poll = s.poll := rfl
@[simp] theorem finishQuiet_st : (finishQuiet s).st = s.st := rfl
@[simp] theorem finishQuiet_err : (finishQuiet s).err = s.err := rfl
@[simp] theorem finishQuiet_dir : (finishQuiet s).dir = s.dir := rfl
@[simp] theorem finishQuiet_rxb : (finishQuiet s).rxb = s.rxb := rfl
@[simp] theorem finishQuiet_txb : (finishQuiet s).txb = s.txb := rfl
@[simp] theorem finishQuiet_ph : (finishQuiet s).ph = .idle := rfl
@[simp] theorem finishQuiet_seg : (finishQuiet s).seg = s.seg := rfl
@[simp] theorem finishQuiet_result : (finishQuiet s).result = s.result := rfl
@[simp] theorem finishQuiet_resultValid : (finishQuiet s).resultValid = s.resultValid := rfl
@[simp] theorem finishQuiet_buf : (finishQuiet s).buf = s.buf := rfl
@[simp] theorem finishQuiet_cfg : (finishQuiet s).cfg = s.cfg := rfl
@[simp] theorem finishQuiet_host : (finishQuiet s).host = s.host := rfl
@[simp] theorem finishQuiet_script : (finishQuiet s).script = s.script := rfl
@[simp] theorem finishQuiet_clock : (finishQuiet s).clock = s.clock := rfl
@[simp] theorem finishQuiet_draws : (finishQuiet s).draws = s.draws := rfl
@[simp] theorem finishQuiet_trace : (finishQuiet s).trace = .finished none :: s.trace := rfl

/-! ## Loading the latches -/

@[simp] theorem loadLatches_en (i : Instr) : (loadLatches i s).en = s.en := by cases i <;> rfl
@[simp] theorem loadLatches_sta (i : Instr) : (loadLatches i s).sta = s.sta := by cases i <;> rfl
@[simp] theorem loadLatches_sto (i : Instr) : (loadLatches i s).sto = s.sto := by cases i <;> rfl
@[simp] theorem loadLatches_ea (i : Instr) : (loadLatches i s).ea = s.ea := by cases i <;> rfl
@[simp] theorem loadLatches_flag (i : Instr) : (loadLatches i s).flag = s.flag := by cases i <;> rfl
@[simp] theorem loadLatches_stat (i : Instr) : (loadLatches i s).stat = s.stat := by cases i <;> rfl
@[simp] theorem loadLatches_statWritten (i : Instr) : (loadLatches i s).statWritten = s.statWritten := by cases i <;> rfl
@[simp] theorem loadLatches_data (i : Instr) : (loadLatches i s).data = s.data := by cases i <;> rfl
@[simp] theorem loadLatches_div (i : Instr) : (loadLatches i s).div = s.div := by cases i <;> rfl
@[simp] theorem loadLatches_pu (i : Instr) : (loadLatches i s).pu = s.pu := by cases i <;> rfl
@[simp] theorem loadLatches_opc (i : Instr) : (loadLatches i s).opc = i.opcode := by cases i <;> rfl
@[simp] theorem loadLatches_idx (i : Instr) : (loadLatches i s).idx = s.idx := by cases i <;> rfl
@[simp] theorem loadLatches_retry (i : Instr) : (loadLatches i s).retry = s.retry := by cases i <;> rfl
@[simp] theorem loadLatches_poll (i : Instr) : (loadLatches i s).poll = s.poll := by cases i <;> rfl
@[simp] theorem loadLatches_st (i : Instr) : (loadLatches i s).st = s.st := by cases i <;> rfl
@[simp] theorem loadLatches_err (i : Instr) : (loadLatches i s).err = s.err := by cases i <;> rfl
@[simp] theorem loadLatches_dir (i : Instr) : (loadLatches i s).dir = s.dir := by cases i <;> rfl
@[simp] theorem loadLatches_rxb (i : Instr) : (loadLatches i s).rxb = s.rxb := by cases i <;> rfl
@[simp] theorem loadLatches_txb (i : Instr) : (loadLatches i s).txb = s.txb := by cases i <;> rfl
@[simp] theorem loadLatches_ph (i : Instr) : (loadLatches i s).ph = s.ph := by cases i <;> rfl
@[simp] theorem loadLatches_seg (i : Instr) : (loadLatches i s).seg = s.seg := by cases i <;> rfl
@[simp] theorem loadLatches_result (i : Instr) : (loadLatches i s).result = s.result := by cases i <;> rfl
@[simp] theorem loadLatches_resultValid (i : Instr) : (loadLatches i s).resultValid = s.resultValid := by cases i <;> rfl
@[simp] theorem loadLatches_buf (i : Instr) : (loadLatches i s).buf = s.buf := by cases i <;> rfl
@[simp] theorem loadLatches_cfg (i : Instr) : (loadLatches i s).cfg = s.cfg := by cases i <;> rfl
@[simp] theorem loadLatches_host (i : Instr) : (loadLatches i s).host = s.host := by cases i <;> rfl
@[simp] theorem loadLatches_script (i : Instr) : (loadLatches i s).script = s.script := by cases i <;> rfl
@[simp] theorem loadLatches_clock (i : Instr) : (loadLatches i s).clock = s.clock := by cases i <;> rfl
@[simp] theorem loadLatches_draws (i : Instr) : (loadLatches i s).draws = s.draws := by cases i <;> rfl
@[simp] theorem loadLatches_trace (i : Instr) : (loadLatches i s).trace = s.trace := by cases i <;> rfl

/-! ## The accepted state -/

@[simp] theorem accepted_en (i : Instr) : (accepted i s).en = s.en := by simp [accepted]
@[simp] theorem accepted_sta (i : Instr) : (accepted i s).sta = s.sta := by simp [accepted]
@[simp] theorem accepted_sto (i : Instr) : (accepted i s).sto = s.sto := by simp [accepted]
@[simp] theorem accepted_ea (i : Instr) : (accepted i s).ea = s.ea := by simp [accepted]
@[simp] theorem accepted_flag (i : Instr) : (accepted i s).flag = s.flag := by simp [accepted]
@[simp] theorem accepted_stat (i : Instr) : (accepted i s).stat = s.stat := by simp [accepted]
@[simp] theorem accepted_statWritten (i : Instr) : (accepted i s).statWritten = s.statWritten := by simp [accepted]
@[simp] theorem accepted_data (i : Instr) : (accepted i s).data = s.data := by simp [accepted]
@[simp] theorem accepted_div (i : Instr) : (accepted i s).div = s.div := by simp [accepted]
@[simp] theorem accepted_pu (i : Instr) : (accepted i s).pu = s.pu := by simp [accepted]
@[simp] theorem accepted_opc (i : Instr) : (accepted i s).opc = i.opcode := by simp [accepted]
@[simp] theorem accepted_idx (i : Instr) : (accepted i s).idx = s.idx := by simp [accepted]
@[simp] theorem accepted_retry (i : Instr) : (accepted i s).retry = s.retry := by simp [accepted]
@[simp] theorem accepted_poll (i : Instr) : (accepted i s).poll = s.poll := by simp [accepted]
@[simp] theorem accepted_st (i : Instr) : (accepted i s).st = s.st := by simp [accepted]
@[simp] theorem accepted_err (i : Instr) : (accepted i s).err = s.err := by simp [accepted]
@[simp] theorem accepted_dir (i : Instr) : (accepted i s).dir = s.dir := by simp [accepted]
@[simp] theorem accepted_rxb (i : Instr) : (accepted i s).rxb = s.rxb := by simp [accepted]
@[simp] theorem accepted_txb (i : Instr) : (accepted i s).txb = s.txb := by simp [accepted]
@[simp] theorem accepted_ph (i : Instr) : (accepted i s).ph = s.ph := by simp [accepted]
@[simp] theorem accepted_seg (i : Instr) : (accepted i s).seg = s.seg := by simp [accepted]
@[simp] theorem accepted_result (i : Instr) : (accepted i s).result = s.result := by simp [accepted]
@[simp] theorem accepted_resultValid (i : Instr) : (accepted i s).resultValid = s.resultValid := by simp [accepted]
@[simp] theorem accepted_buf (i : Instr) : (accepted i s).buf = s.buf := by simp [accepted]
@[simp] theorem accepted_cfg (i : Instr) : (accepted i s).cfg = s.cfg := by simp [accepted]
@[simp] theorem accepted_host (i : Instr) : (accepted i s).host = s.host := by simp [accepted]
@[simp] theorem accepted_script (i : Instr) : (accepted i s).script = s.script := by simp [accepted]
@[simp] theorem accepted_clock (i : Instr) : (accepted i s).clock = s.clock := by simp [accepted]
@[simp] theorem accepted_draws (i : Instr) : (accepted i s).draws = s.draws := by simp [accepted]
@[simp] theorem accepted_trace (i : Instr) : (accepted i s).trace = .issued (encode i) :: s.trace := by simp [accepted]

end Sys2Proof.Machine
end

