-- ==== Sys2Proof/Laws/Ops.lean ====
section
/-! SUPPORT. What each shared operation can do, said once: PERIPH's turn, the reads, the accesses of the phases, and the
micro-sequences. The statements' proofs cite these lemmas and do not unfold the operations. -/

namespace Sys2Proof.Machine

/-! ## Frames

`BusOnly s t`: from `s` to `t` only CTRL, FLAG, STAT, DATA, POLL, ST, PH, the environment's counters and the port events
may have changed. Every access of WAIT, ADDRESS (but DIR and RETRY), TXBYTE and STOPSEQ is of this kind. -/

/-- What the accesses on the bus leave alone. -/
structure BusOnly (s t : State) : Prop where
  div : t.div = s.div
  pu : t.pu = s.pu
  opc : t.opc = s.opc
  dev : t.dev = s.dev
  rega : t.rega = s.rega
  len : t.len = s.len
  val : t.val = s.val
  khz : t.khz = s.khz
  puen : t.puen = s.puen
  idx : t.idx = s.idx
  retry : t.retry = s.retry
  err : t.err = s.err
  dir : t.dir = s.dir
  rxb : t.rxb = s.rxb
  txb : t.txb = s.txb
  seg : t.seg = s.seg
  result : t.result = s.result
  resultValid : t.resultValid = s.resultValid
  buf : t.buf = s.buf
  cfg : t.cfg = s.cfg
  host : t.host = s.host

theorem BusOnly.refl (s : State) : BusOnly s s := by constructor <;> exact Eq.refl _

theorem BusOnly.trans {s t u : State} (h : BusOnly s t) (k : BusOnly t u) : BusOnly s u :=
  { div := k.div.trans h.div, pu := k.pu.trans h.pu, opc := k.opc.trans h.opc, dev := k.dev.trans h.dev,
    rega := k.rega.trans h.rega, len := k.len.trans h.len, val := k.val.trans h.val, khz := k.khz.trans h.khz,
    puen := k.puen.trans h.puen, idx := k.idx.trans h.idx, retry := k.retry.trans h.retry, err := k.err.trans h.err,
    dir := k.dir.trans h.dir, rxb := k.rxb.trans h.rxb, txb := k.txb.trans h.txb, seg := k.seg.trans h.seg,
    result := k.result.trans h.result, resultValid := k.resultValid.trans h.resultValid, buf := k.buf.trans h.buf,
    cfg := k.cfg.trans h.cfg, host := k.host.trans h.host }

/-- The invariant of the link between SEQ and PERIPH: FLAG = 1 only while enabled (R82) and after STAT was written (R74). -/
def LinkOk (s : State) : Prop := s.flag = true → s.en = true ∧ s.statWritten = true

/-! ## PERIPH's turn (R79 to R82) -/

/-- While FLAG = 1 or EN = 0 PERIPH has no step (R81, R82). -/
theorem periphTurn_disabled (s : State) (h : periphEnabled s = false) : periphTurn s = s := by
  simp [periphTurn, h]

/-- Everything a turn of PERIPH can do: nothing, or, where it is enabled, use up one move and perhaps complete (R80). -/
theorem periphTurn_cases (s : State) :
    (periphEnabled s = false ∧ periphTurn s = s) ∨
    (periphEnabled s = true ∧ ∃ m, ((∃ rest, s.script = m :: rest ∧ periphTurn s = periphMove m { s with script := rest }) ∨
      (s.script = [] ∧ m = Config.freePeriphMove s.clock ∧
        periphTurn s = periphMove m { s with clock := s.clock + 1 }))) := by
  cases he : periphEnabled s with
  | false => exact .inl ⟨rfl, periphTurn_disabled s he⟩
  | true =>
    refine .inr ⟨rfl, ?_⟩
    cases hs : s.script with
    | nil => exact ⟨_, .inr ⟨rfl, rfl, by simp [periphTurn, he, hs]⟩⟩
    | cons m rest => exact ⟨m, .inl ⟨rest, rfl, by simp [periphTurn, he, hs]⟩⟩

/-- The next move of the script is taken where PERIPH is enabled. -/
theorem periphTurn_script (s : State) (m : PeriphMove) (rest : List PeriphMove) (hf : s.flag = false)
    (he : s.en = true) (hs : s.script = m :: rest) : periphTurn s = periphMove m { s with script := rest } := by
  simp [periphTurn, periphEnabled, hf, he, hs]

theorem periphMove_busOnly (m : PeriphMove) (s : State) : BusOnly s (periphMove m s) := by
  cases m <;> constructor <;> rfl

theorem periphTurn_busOnly (s : State) : BusOnly s (periphTurn s) := by
  rcases periphTurn_cases s with ⟨-, h⟩ | ⟨-, m, ⟨rest, -, h⟩ | ⟨-, -, h⟩⟩
  · rw [h]; exact BusOnly.refl s
  · rw [h]; cases m <;> constructor <;> rfl
  · rw [h]; cases m <;> constructor <;> rfl

/-- A turn of PERIPH keeps the four stored fields of CTRL, POLL, ST, PH and the port events. -/
theorem periphTurn_keeps (s : State) :
    (periphTurn s).en = s.en ∧ (periphTurn s).sta = s.sta ∧ (periphTurn s).sto = s.sto ∧ (periphTurn s).ea = s.ea ∧
      (periphTurn s).poll = s.poll ∧ (periphTurn s).st = s.st ∧ (periphTurn s).ph = s.ph ∧
      (periphTurn s).draws = s.draws ∧ (periphTurn s).trace = s.trace := by
  rcases periphTurn_cases s with ⟨-, h⟩ | ⟨-, m, ⟨rest, -, h⟩ | ⟨-, -, h⟩⟩
  · simp [h]
  · rw [h]; cases m <;> simp [periphMove]
  · rw [h]; cases m <;> simp [periphMove]

/-- A turn of PERIPH never clears FLAG (R31). -/
theorem periphTurn_flag (s : State) (h : s.flag = true) : (periphTurn s).flag = true := by
  rw [periphTurn_disabled s (by simp [periphEnabled, h])]; exact h

theorem periphTurn_link (s : State) (h : LinkOk s) : LinkOk (periphTurn s) := by
  rcases periphTurn_cases s with ⟨-, e⟩ | ⟨he, m, ⟨rest, -, e⟩ | ⟨-, -, e⟩⟩
  · rwa [e]
  · rw [e]; simp only [periphEnabled, Bool.and_eq_true] at he
    cases m
    · exact h
    · exact fun _ => ⟨he.2, rfl⟩
  · rw [e]; simp only [periphEnabled, Bool.and_eq_true] at he
    cases m
    · exact h
    · exact fun _ => ⟨he.2, rfl⟩

/-! ## Coming to a phase -/

@[simp] theorem enter_ph (p : Phase) (s : State) : (enter p s).ph = p := (periphTurn_keeps _).2.2.2.2.2.2.1
@[simp] theorem enter_trace (p : Phase) (s : State) : (enter p s).trace = s.trace := (periphTurn_keeps _).2.2.2.2.2.2.2.2
@[simp] theorem enter_en (p : Phase) (s : State) : (enter p s).en = s.en := (periphTurn_keeps _).1
@[simp] theorem enter_sta (p : Phase) (s : State) : (enter p s).sta = s.sta := (periphTurn_keeps _).2.1
@[simp] theorem enter_sto (p : Phase) (s : State) : (enter p s).sto = s.sto := (periphTurn_keeps _).2.2.1
@[simp] theorem enter_ea (p : Phase) (s : State) : (enter p s).ea = s.ea := (periphTurn_keeps _).2.2.2.1
@[simp] theorem enter_poll (p : Phase) (s : State) : (enter p s).poll = s.poll := (periphTurn_keeps _).2.2.2.2.1
@[simp] theorem enter_st (p : Phase) (s : State) : (enter p s).st = s.st := (periphTurn_keeps _).2.2.2.2.2.1
@[simp] theorem enter_draws (p : Phase) (s : State) : (enter p s).draws = s.draws := (periphTurn_keeps _).2.2.2.2.2.2.2.1

theorem enter_busOnly (p : Phase) (s : State) : BusOnly s (enter p s) :=
  BusOnly.trans (t := { s with ph := p }) (by constructor <;> rfl) (periphTurn_busOnly _)

@[simp] theorem enter_cfg (p : Phase) (s : State) : (enter p s).cfg = s.cfg := (enter_busOnly p s).cfg

theorem enter_link (p : Phase) (s : State) (h : LinkOk s) : LinkOk (enter p s) := periphTurn_link { s with ph := p } h

/-- The phase does not matter to what PERIPH does. -/
theorem enter_eq (p : Phase) (s : State) : enter p s = { periphTurn s with ph := p } := by
  unfold enter periphTurn periphEnabled
  simp only
  split
  · split <;> (simp only [periphMove]; split <;> rfl)
  · rfl

/-- While FLAG = 1 nothing happens on the way to a phase. -/
theorem enter_flag (p : Phase) (s : State) (h : s.flag = true) : enter p s = { s with ph := p } := by
  rw [enter_eq, periphTurn_disabled s (by simp [periphEnabled, h])]

/-! ## Reads -/

/-- Bit B_INT of a read of CTRL is FLAG (R73). -/
@[simp] theorem readCtrl_int (s : State) : (readCtrl s).1 s.cfg.bits.bInt = s.flag := by simp [readCtrl, ctrlReadBit]

/-- A read of CTRL changes nothing but the count of draws and the port events (R73). -/
theorem readCtrl_state (s : State) :
    (readCtrl s).2 = logEvent (.poll s.flag) { s with draws := s.draws + 1 } := by simp [readCtrl, ctrlReadBit]

/-- A read of an STAT that PERIPH has written returns it and changes nothing but the port events (R74). -/
theorem readStat_written (s : State) (h : s.statWritten = true) :
    readStat s = (s.stat, logEvent (.ioRead .stat s.stat) s) := by simp [readStat, h]

/-! ## The accesses of the phases -/

/-- After a trigger with an active word FLAG is 0, EN is 1 and POLL is loaded (R72, R160). -/
theorem doTrigger_spec (p : Phase) (w : Byte) (s : State) :
    BusOnly s (doTrigger p w s) ∧ (doTrigger p w s).ph = p ∧ (doTrigger p w s).poll = s.cfg.pollLimit ∧
      (doTrigger p w s).st = s.st ∧ (doTrigger p w s).draws = s.draws ∧
      (doTrigger p w s).en = w.getLsbD s.cfg.bits.bEn ∧ (doTrigger p w s).sta = w.getLsbD s.cfg.bits.bSta ∧
      (doTrigger p w s).sto = w.getLsbD s.cfg.bits.bSto ∧ (doTrigger p w s).ea = w.getLsbD s.cfg.bits.bEa ∧
      (doTrigger p w s).flag = flagAfterCtrlWrite s.cfg.bits w (enter p s).flag ∧
      (doTrigger p w s).stat = (enter p s).stat ∧ (doTrigger p w s).data = (enter p s).data ∧
      (doTrigger p w s).statWritten = (enter p s).statWritten ∧ (doTrigger p w s).script = (enter p s).script ∧
      (doTrigger p w s).clock = (enter p s).clock ∧
      (doTrigger p w s).trace = .ioWrite .ctrl w :: s.trace := by
  refine ⟨BusOnly.trans (enter_busOnly p s) ?_, ?_⟩
  · constructor <;> rfl
  · simp [doTrigger]

theorem doTrigger_active (p : Phase) (w : Byte) (s : State) (h : ControlWords.active s.cfg.bits w = true) :
    (doTrigger p w s).flag = false ∧ (doTrigger p w s).en = true := by
  simp only [ControlWords.active, Bool.and_eq_true] at h
  obtain ⟨-, -, -, -, -, he, -, -, -, hf, -⟩ := doTrigger_spec p w s
  exact ⟨by rw [hf]; simp [flagAfterCtrlWrite, h.1.1], by rw [he]; exact h.1.2⟩

/-- FLAG after any write of CTRL implies that the written word enables the peripheral (R72, R82). -/
theorem writeCtrl_link (w : Byte) (s : State) (h : LinkOk s) : LinkOk (writeCtrl w s) := by
  intro hf
  simp only [writeCtrl_flag, flagAfterCtrlWrite] at hf
  split at hf
  · cases hf
  · rename_i hw
    simp only [Bool.or_eq_true, not_or, Bool.not_eq_true, Bool.not_eq_false'] at hw
    exact ⟨by simpa using hw.2, (h hf).2⟩

theorem doTrigger_link (p : Phase) (w : Byte) (s : State) (h : LinkOk s) : LinkOk (doTrigger p w s) :=
  writeCtrl_link w _ (enter_link p s h)

/-- Everything one poll does (R160, R73): PERIPH's turn, then the read of FLAG. -/
theorem doPoll_eq (p : Phase) (s : State) :
    doPoll p s = ((enter p s).flag,
      { logEvent (.poll (enter p s).flag) { enter p s with draws := s.draws + 1 } with poll := s.poll - 1 }) := by
  have h := readCtrl_state (enter p s)
  have hi := readCtrl_int (enter p s)
  simp only [doPoll, h, logEvent_cfg, logEvent_poll]
  rw [hi]
  simp [logEvent]

theorem doPoll_busOnly (p : Phase) (s : State) : BusOnly s (doPoll p s).2 := by
  rw [doPoll_eq]
  exact BusOnly.trans (enter_busOnly p s) (by constructor <;> rfl)

theorem doPoll_link (p : Phase) (s : State) (h : LinkOk s) : LinkOk (doPoll p s).2 := by
  rw [doPoll_eq]
  exact enter_link p s h

/-- A status check after a completion: STAT is read once and masked into ST; nothing else happens (R127, R81). -/
theorem doStatus_flag (p : Phase) (s : State) (hf : s.flag = true) (hs : s.statWritten = true) :
    doStatus p s =
      { logEvent (.ioRead .stat s.stat) { s with ph := p } with st := maskStatus s.cfg s.stat } := by
  simp only [doStatus, enter_flag p s hf]
  rw [readStat_written _ (by simpa using hs)]
  rfl

theorem readStat_busOnly (s : State) : BusOnly s (readStat s).2 := by
  unfold readStat; split <;> constructor <;> rfl

theorem doStatus_busOnly (p : Phase) (s : State) : BusOnly s (doStatus p s) :=
  BusOnly.trans (enter_busOnly p s) (BusOnly.trans (readStat_busOnly _) (by constructor <;> rfl))

theorem doStatus_link (p : Phase) (s : State) (h : LinkOk s) : LinkOk (doStatus p s) := by
  have := enter_link p s h
  unfold doStatus readStat
  split <;> exact this

theorem doWriteData_busOnly (p : Phase) (v : Byte) (s : State) : BusOnly s (doWriteData p v s) :=
  BusOnly.trans (enter_busOnly p s) (by constructor <;> rfl)

theorem doWriteData_link (p : Phase) (v : Byte) (s : State) (h : LinkOk s) : LinkOk (doWriteData p v s) :=
  enter_link p s h

@[simp] theorem doWriteData_trace (p : Phase) (v : Byte) (s : State) :
    (doWriteData p v s).trace = .ioWrite .data v :: s.trace := by simp [doWriteData]

@[simp] theorem doWriteData_data (p : Phase) (v : Byte) (s : State) : (doWriteData p v s).data = v := rfl

/-- The store of a received byte (R231). -/
theorem doStore_spec (s : State) :
    (doStore s).buf = Memory.write s.buf s.idx.toNat s.rxb ∧ (doStore s).idx = s.idx + 1 ∧
      (doStore s).trace = .bufWrite s.idx.toNat s.rxb :: s.trace ∧ (doStore s).cfg = s.cfg ∧
      (doStore s).len = s.len ∧ (doStore s).ph = .rStore := by
  have h := enter_busOnly .rStore s
  refine ⟨?_, ?_, ?_, ?_, ?_, ?_⟩ <;> simp [doStore, h.buf, h.idx, h.rxb, h.len]

theorem doStore_bufWf (s : State) (h : Memory.wf s.buf) : Memory.wf (doStore s).buf := by
  rw [(doStore_spec s).1]
  exact Memory.write_wf _ _ _ s.idx.isLt h

theorem doStore_link (s : State) (h : LinkOk s) : LinkOk (doStore s) := enter_link .rStore s h

theorem doReceive_link (s : State) (h : LinkOk s) : LinkOk (doReceive s) := enter_link .rData s h

/-- The fetch of a byte to transmit (R221): it answers exactly where `BUF[IDX]` holds a value. -/
theorem doFetch_some (s : State) (v : Byte) (h : Memory.read s.buf s.idx.toNat = some v) :
    doFetch s = some (logEvent (.bufRead s.idx.toNat v) { enter .tFetch s with txb := v }) := by
  have k := enter_busOnly .tFetch s
  simp [doFetch, k.buf, k.idx, h]

theorem doFetch_none (s : State) (h : Memory.read s.buf s.idx.toNat = none) : doFetch s = none := by
  have k := enter_busOnly .tFetch s
  simp [doFetch, k.buf, k.idx, h]

/-! ## Acceptance (R112) -/

/-- Acceptance answers a next state exactly for a legal command on an idle block, and then it is the accepted state. -/
theorem accept_next (i : Instr) (s : State) (hp : s.ph = .idle) (hw : i.wf = true) :
    accept i s = .next (accepted i s) := by simp [accept, hp, hw]

theorem accept_busy (i : Instr) (s : State) (hp : s.ph ≠ .idle) : accept i s = .refused .busy := by simp [accept, hp]

@[simp] theorem thenDo_next (s : State) (k : State → Host.Outcome State Fault Refusal) : thenDo (.next s) k = k s := rfl

end Sys2Proof.Machine
end

