-- ==== Sys2Proof/Laws/MicroSequences.lean ====
section
/-! SUPPORT. What WAIT, ADDRESS, TXBYTE and STOPSEQ can do: their frames, the link invariant, and WAIT under an answer of
the environment (spec/20_memory.md R84). -/

namespace Sys2Proof.Machine

/-! ## WAIT (R160) -/

theorem waitLoop_busOnly (p : Phase) (n : Nat) (s : State) : BusOnly s (waitLoop p n s).2 := by
  induction n generalizing s with
  | zero => exact BusOnly.refl s
  | succ n ih =>
    simp only [waitLoop]
    split
    · exact doPoll_busOnly p s
    · exact (doPoll_busOnly p s).trans (ih _)

theorem wait_busOnly (p : Phase) (s : State) : BusOnly s (wait p s).2 := waitLoop_busOnly p _ s

theorem waitLoop_link (p : Phase) (n : Nat) (s : State) (h : LinkOk s) : LinkOk (waitLoop p n s).2 := by
  induction n generalizing s with
  | zero => exact h
  | succ n ih =>
    simp only [waitLoop]
    split
    · exact doPoll_link p s h
    · exact ih _ (doPoll_link p s h)

theorem wait_link (p : Phase) (s : State) (h : LinkOk s) : LinkOk (wait p s).2 := waitLoop_link p _ s h

/-- WAIT answers `ok` exactly with FLAG = 1 at its last read (R160, R161). -/
theorem waitLoop_ok_flag (p : Phase) (n : Nat) (s : State) (h : (waitLoop p n s).1 = .ok) :
    (waitLoop p n s).2.flag = true := by
  induction n generalizing s with
  | zero => cases h
  | succ n ih =>
    simp only [waitLoop] at h ⊢
    split
    · rename_i hf
      rw [doPoll_eq] at hf ⊢
      exact hf
    · rename_i hf
      rw [if_neg hf] at h
      exact ih _ h

theorem wait_ok_flag (p : Phase) (s : State) (h : (wait p s).1 = .ok) : (wait p s).2.flag = true :=
  waitLoop_ok_flag p _ s h

/-- A poll with PERIPH staying: FLAG is seen 0 and one move is used up. -/
theorem doPoll_stay (p : Phase) (s : State) (rest : List PeriphMove) (hf : s.flag = false) (he : s.en = true)
    (hs : s.script = .stay :: rest) :
    doPoll p s = (false,
      { logEvent (.poll false) { s with ph := p, script := rest, draws := s.draws + 1 } with poll := s.poll - 1 }) := by
  have e : enter p s = { s with ph := p, script := rest } := by
    rw [enter_eq, periphTurn_script s _ rest hf he hs]; rfl
  rw [doPoll_eq, e]
  simp [hf]

/-- A poll with PERIPH completing: FLAG is seen 1. -/
theorem doPoll_complete (p : Phase) (s : State) (x y : Byte) (rest : List PeriphMove) (hf : s.flag = false)
    (he : s.en = true) (hs : s.script = .complete x y :: rest) :
    doPoll p s = (true,
      { logEvent (.poll true) { periphStep x y { s with ph := p, script := rest } with draws := s.draws + 1 } with
        poll := s.poll - 1 }) := by
  have e : enter p s = periphStep x y { s with ph := p, script := rest } := by
    rw [enter_eq, periphTurn_script s _ rest hf he hs]; rfl
  rw [doPoll_eq, e]
  simp

/-! ## TXBYTE (R170) and STOPSEQ (R180) -/

theorem txByte_busOnly (v : Byte) (c : TxCodes) (s : State) : BusOnly s (txByte v c s).2 := by
  have h1 := doWriteData_busOnly .tData v s
  have h2 := h1.trans ((doTrigger_spec .tTrig (doWriteData .tData v s).cfg.cw.xfer (doWriteData .tData v s)).1.trans
    (wait_busOnly .tWait _))
  unfold txByte
  simp only
  split
  · exact h2
  · split
    · exact h2.trans (doStatus_busOnly .tStat _)
    · exact h2.trans (doStatus_busOnly .tStat _)

theorem txByte_link (v : Byte) (c : TxCodes) (s : State) (h : LinkOk s) : LinkOk (txByte v c s).2 := by
  have h2 := wait_link .tWait _ (doTrigger_link .tTrig (doWriteData .tData v s).cfg.cw.xfer _
    (doWriteData_link .tData v s h))
  unfold txByte
  simp only
  split
  · exact h2
  · split <;> exact doStatus_link .tStat _ h2

theorem stopSeq_busOnly (s : State) : BusOnly s (stopSeq s).2 :=
  (doTrigger_spec .sTrig s.cfg.cw.stop s).1.trans (wait_busOnly .sWait _)

theorem stopSeq_link (s : State) (h : LinkOk s) : LinkOk (stopSeq s).2 :=
  wait_link .sWait _ (doTrigger_link .sTrig _ s h)

/-! ## ADDRESS (R165) -/

theorem addressAttempt_busOnly (dev : BitVec 7) (dir : Dir) (c : AddrCodes) (s : State) :
    BusOnly s (addressAttempt dev dir c s).2 := by
  have h1 := (doTrigger_spec .aStart s.cfg.cw.start s).1.trans (wait_busOnly .aStartWait _)
  unfold addressAttempt
  simp only
  split
  · exact h1
  · have h2 := h1.trans (doStatus_busOnly .aStartStat _)
    split
    · exact h2
    · have h3 := fun w => h2.trans ((doWriteData_busOnly .aAddrData (addrByte dev dir) _).trans
        ((doTrigger_spec .aAddrTrig w _).1.trans (wait_busOnly .aAddrWait _)))
      split
      · exact h3 _
      · exact (h3 _).trans (doStatus_busOnly .aAddrStat _)

theorem addressAttempt_link (dev : BitVec 7) (dir : Dir) (c : AddrCodes) (s : State) (h : LinkOk s) :
    LinkOk (addressAttempt dev dir c s).2 := by
  have h1 := wait_link .aStartWait _ (doTrigger_link .aStart s.cfg.cw.start s h)
  unfold addressAttempt
  simp only
  split
  · exact h1
  · have h2 := doStatus_link .aStartStat _ h1
    split
    · exact h2
    · have h3 := fun w => wait_link .aAddrWait _ (doTrigger_link .aAddrTrig w _
        (doWriteData_link .aAddrData (addrByte dev dir) _ h2))
      split
      · exact h3 _
      · exact doStatus_link .aAddrStat _ (h3 _)

/-- The retry loop changes RETRY besides what accesses on the bus change. -/
theorem addressLoop_busOnly (dev : BitVec 7) (dir : Dir) (c : AddrCodes) (n : Nat) (s : State) :
    BusOnly s { (addressLoop dev dir c n s).2 with retry := s.retry } := by
  induction n generalizing s with
  | zero =>
    have h := addressAttempt_busOnly dev dir c s
    unfold addressLoop
    simp only
    split
    · exact h.retry ▸ h
    · split <;> exact h.retry ▸ h
  | succ n ih =>
    have h := addressAttempt_busOnly dev dir c s
    unfold addressLoop
    simp only
    split
    · exact h.retry ▸ h
    · split
      · have k := ih { (addressAttempt dev dir c s).2 with retry := (addressAttempt dev dir c s).2.retry - 1 }
        exact
          { div := k.div.trans h.div, pu := k.pu.trans h.pu, opc := k.opc.trans h.opc, dev := k.dev.trans h.dev,
            rega := k.rega.trans h.rega, len := k.len.trans h.len, val := k.val.trans h.val,
            khz := k.khz.trans h.khz, puen := k.puen.trans h.puen, idx := k.idx.trans h.idx,
            err := k.err.trans h.err, dir := k.dir.trans h.dir, rxb := k.rxb.trans h.rxb,
            txb := k.txb.trans h.txb, seg := k.seg.trans h.seg, result := k.result.trans h.result,
            resultValid := k.resultValid.trans h.resultValid, buf := k.buf.trans h.buf,
            cfg := k.cfg.trans h.cfg, host := k.host.trans h.host, retry := rfl }
      · split <;> exact h.retry ▸ h

/-- ADDRESS sets DIR and uses RETRY besides what accesses on the bus change (R165). -/
theorem address_busOnly (dev : BitVec 7) (dir : Dir) (c : AddrCodes) (s : State) :
    BusOnly { s with dir := dir } { (address dev dir c s).2 with retry := s.retry } := by
  have h := addressLoop_busOnly dev dir c s.cfg.addrRetries.toNat { s with dir := dir, retry := s.cfg.addrRetries }
  exact
    { div := h.div, pu := h.pu, opc := h.opc, dev := h.dev, rega := h.rega, len := h.len, val := h.val,
      khz := h.khz, puen := h.puen, idx := h.idx, err := h.err, dir := h.dir, rxb := h.rxb, txb := h.txb,
      seg := h.seg, result := h.result, resultValid := h.resultValid, buf := h.buf, cfg := h.cfg,
      host := h.host, retry := rfl }

theorem addressLoop_link (dev : BitVec 7) (dir : Dir) (c : AddrCodes) (n : Nat) (s : State) (h : LinkOk s) :
    LinkOk (addressLoop dev dir c n s).2 := by
  induction n generalizing s with
  | zero =>
    have k := addressAttempt_link dev dir c s h
    unfold addressLoop
    simp only
    split
    · exact k
    · split <;> exact k
  | succ n ih =>
    have k := addressAttempt_link dev dir c s h
    unfold addressLoop
    simp only
    split
    · exact k
    · split
      · exact ih _ k
      · split <;> exact k

theorem address_link (dev : BitVec 7) (dir : Dir) (c : AddrCodes) (s : State) (h : LinkOk s) :
    LinkOk (address dev dir c s).2 := addressLoop_link dev dir c _ _ h

/-- One attempt of ADDRESS fails only with one of its first three codes (R165). -/
theorem addressAttempt_code (dev : BitVec 7) (dir : Dir) (c : AddrCodes) (s : State) :
    (addressAttempt dev dir c s).1 = none ∨ (addressAttempt dev dir c s).1 = some c.startTimeout ∨
      (addressAttempt dev dir c s).1 = some c.startStatus ∨ (addressAttempt dev dir c s).1 = some c.addrTimeout := by
  unfold addressAttempt
  simp only
  split
  · simp
  · split
    · simp
    · split <;> simp

/-- ADDRESS answers 0 or one of its four codes (R165). -/
theorem address_code (dev : BitVec 7) (dir : Dir) (c : AddrCodes) (s : State) :
    (address dev dir c s).1 = 0 ∨ (address dev dir c s).1 ∈ c.toList := by
  suffices h : ∀ n s, (addressLoop dev dir c n s).1 = 0 ∨ (addressLoop dev dir c n s).1 ∈ c.toList from h _ _
  intro n
  induction n with
  | zero =>
    intro s
    have h := addressAttempt_code dev dir c s
    unfold addressLoop
    simp only
    split
    · rename_i code e
      rw [e] at h
      simp only [Option.some.injEq, reduceCtorEq, false_or] at h
      rcases h with rfl | rfl | rfl <;> simp [AddrCodes.toList]
    · split <;> simp [AddrCodes.toList]
  | succ n ih =>
    intro s
    have h := addressAttempt_code dev dir c s
    unfold addressLoop
    simp only
    split
    · rename_i code e
      rw [e] at h
      simp only [Option.some.injEq, reduceCtorEq, false_or] at h
      rcases h with rfl | rfl | rfl <;> simp [AddrCodes.toList]
    · split
      · exact ih _
      · split <;> simp [AddrCodes.toList]

/-- TXBYTE answers 0 or one of its two codes (R170). -/
theorem txByte_code (v : Byte) (c : TxCodes) (s : State) : (txByte v c s).1 = 0 ∨ (txByte v c s).1 ∈ c.toList := by
  unfold txByte
  simp only
  split
  · simp [TxCodes.toList]
  · split <;> simp [TxCodes.toList]

end Sys2Proof.Machine
end

