-- ==== Sys2Proof/Laws/Exec.lean ====
section
/-! SUPPORT. Each meaning on an idle block, as its micro-sequence on the accepted state; what is left of a meaning on a busy
block. -/

namespace Sys2Proof.Machine

/-- On an idle block every legal command is accepted and its micro-sequence decides the outcome. -/
theorem execConfigure_idle (khz : BitVec 16) (pu : Bool) (s : State) (hp : s.ph = .idle) (hk : khz ≠ 0) :
    exec (.configure khz pu) s = .next (runConfigure (accepted (.configure khz pu) s)) := by
  simp [exec, execConfigure, accept_next (.configure khz pu) s hp (by simpa [Instr.wf] using hk)]

theorem execBegin_idle (dev : BitVec 7) (s : State) (hp : s.ph = .idle) :
    exec (.beginTrans dev) s = .next (runBegin (accepted (.beginTrans dev) s)) := by
  simp [exec, execBegin, accept_next (.beginTrans dev) s hp rfl]

theorem execSend_idle (val : Byte) (s : State) (hp : s.ph = .idle) :
    exec (.send val) s = .next (runSend (accepted (.send val) s)) := by
  simp [exec, execSend, accept_next (.send val) s hp rfl]

theorem execWrblk_idle (dev : BitVec 7) (reg len : Byte) (s : State) (hp : s.ph = .idle) :
    exec (.wrblk dev reg len) s = wrblkOutcome (runWrblk (accepted (.wrblk dev reg len) s)) := by
  simp [exec, execWrblk, accept_next (.wrblk dev reg len) s hp rfl]

theorem execRdblk_idle (dev : BitVec 7) (reg len : Byte) (s : State) (hp : s.ph = .idle) :
    exec (.rdblk dev reg len) s = .next (runRdblk (accepted (.rdblk dev reg len) s)) := by
  simp [exec, execRdblk, accept_next (.rdblk dev reg len) s hp rfl]

theorem execStop_idle (s : State) (hp : s.ph = .idle) :
    exec .stop s = .next (runStop (accepted .stop s)) := by
  simp [exec, execStop, accept_next (.stop) s hp rfl]

theorem execReset_idle (s : State) (hp : s.ph = .idle) :
    exec .reset s = .next (runReset (accepted .reset s)) := by
  simp [exec, execReset, accept_next (.reset) s hp rfl]

/-- The latches that each format loads (R112, R115 to R119). -/
@[simp] theorem accepted_beginTrans_dev (dev : BitVec 7) (s : State) : (accepted (.beginTrans dev) s).dev = dev := rfl
@[simp] theorem accepted_send_val (val : Byte) (s : State) : (accepted (.send val) s).val = val := rfl
@[simp] theorem accepted_wrblk_dev (dev : BitVec 7) (reg len : Byte) (s : State) :
    (accepted (.wrblk dev reg len) s).dev = dev := rfl
@[simp] theorem accepted_wrblk_rega (dev : BitVec 7) (reg len : Byte) (s : State) :
    (accepted (.wrblk dev reg len) s).rega = reg := rfl
@[simp] theorem accepted_wrblk_len (dev : BitVec 7) (reg len : Byte) (s : State) :
    (accepted (.wrblk dev reg len) s).len = len := rfl
@[simp] theorem accepted_rdblk_dev (dev : BitVec 7) (reg len : Byte) (s : State) :
    (accepted (.rdblk dev reg len) s).dev = dev := rfl
@[simp] theorem accepted_rdblk_rega (dev : BitVec 7) (reg len : Byte) (s : State) :
    (accepted (.rdblk dev reg len) s).rega = reg := rfl
@[simp] theorem accepted_rdblk_len (dev : BitVec 7) (reg len : Byte) (s : State) :
    (accepted (.rdblk dev reg len) s).len = len := rfl
@[simp] theorem accepted_configure_khz (khz : BitVec 16) (pu : Bool) (s : State) :
    (accepted (.configure khz pu) s).khz = khz := rfl
@[simp] theorem accepted_configure_puen (khz : BitVec 16) (pu : Bool) (s : State) :
    (accepted (.configure khz pu) s).puen = pu := rfl

end Sys2Proof.Machine
end

