-- ==== Sys2Proof/Laws/PerInstr.lean ====
section
/-! SUPPORT. Per-instruction laws about the syntax: the fields OP and Z of every command's word (spec/30_encoding.md R110,
R113). -/

namespace Sys2Proof.Laws

/-- A word built as the encoder builds it has its first part in bits 31:28 and its second in bits 27:24. -/
theorem opcode_of_append (a z : BitVec 4) (x : BitVec 24) :
    ((a ++ z) ++ x).extractLsb' 28 4 = a ∧ ((a ++ z) ++ x).extractLsb' 24 4 = z := by
  constructor <;>
  · apply BitVec.eq_of_getLsbD_eq
    intro i hi
    simp only [BitVec.getLsbD_extractLsb', BitVec.getLsbD_append, hi, decide_true, Bool.true_and]
    split
    · omega
    · split
      · first | omega | (congr 1; omega)
      · first | omega | (congr 1; omega)

namespace OpcodeField

/-- OP of the command's word is its opcode and Z is 0000 (R110, R113). -/
def Statement (i : Instr) : Prop := fieldOP (encode i) = i.opcode ∧ (encode i).extractLsb' 24 4 = 0

theorem configure (khz : BitVec 16) (pu : Bool) : Statement (.configure khz pu) := opcode_of_append _ _ _
theorem beginTrans (dev : BitVec 7) : Statement (.beginTrans dev) := opcode_of_append _ _ _
theorem send (val : Byte) : Statement (.send val) := opcode_of_append _ _ _
theorem wrblk (dev : BitVec 7) (reg len : Byte) : Statement (.wrblk dev reg len) := opcode_of_append _ _ _
theorem rdblk (dev : BitVec 7) (reg len : Byte) : Statement (.rdblk dev reg len) := opcode_of_append _ _ _
theorem stop : Statement .stop := opcode_of_append _ _ _
theorem reset : Statement .reset := opcode_of_append _ _ _

end OpcodeField

end Sys2Proof.Laws
end

