-- ==== Sys2Proof/Laws/Script.lean ====
section
/-! SUPPORT. The readers of port events over joined lists of events, and on the polls of a WAIT, so that a proof about a
command's events takes them apart access by access. -/

namespace Sys2Proof.Machine

variable (es fs : List PortEvent)

@[simp] theorem ctrlWords_append : ctrlWords (es ++ fs) = ctrlWords es ++ ctrlWords fs := List.filterMap_append
@[simp] theorem dataBytes_append : dataBytes (es ++ fs) = dataBytes es ++ dataBytes fs := List.filterMap_append
@[simp] theorem dataReads_append : dataReads (es ++ fs) = dataReads es ++ dataReads fs := List.filterMap_append
@[simp] theorem bufReads_append : bufReads (es ++ fs) = bufReads es ++ bufReads fs := List.filterMap_append
@[simp] theorem bufWrites_append : bufWrites (es ++ fs) = bufWrites es ++ bufWrites fs := List.filterMap_append
@[simp] theorem finishes_append : finishes (es ++ fs) = finishes es ++ finishes fs := List.filterMap_append
@[simp] theorem ioEvents_append : ioEvents (es ++ fs) = ioEvents es ++ ioEvents fs := List.filter_append ..
@[simp] theorem pollCount_append : pollCount (es ++ fs) = pollCount es + pollCount fs := List.countP_append ..
@[simp] theorem ioWriteCount_append : ioWriteCount (es ++ fs) = ioWriteCount es + ioWriteCount fs :=
  List.countP_append ..

/-- Polls are none of the accesses a reader looks for. -/
theorem readers_pollsTimeout (n : Nat) :
    ctrlWords (pollsTimeout n) = [] ∧ dataBytes (pollsTimeout n) = [] ∧ dataReads (pollsTimeout n) = [] ∧
      bufReads (pollsTimeout n) = [] ∧ bufWrites (pollsTimeout n) = [] ∧ finishes (pollsTimeout n) = [] := by
  simp only [ctrlWords, dataBytes, dataReads, bufReads, bufWrites, finishes, List.filterMap_eq_nil_iff, pollsTimeout]
  refine ⟨?_, ?_, ?_, ?_, ?_, ?_⟩ <;> intro e he <;> rw [List.eq_of_mem_replicate he]

theorem readers_pollsDone (k : Nat) :
    ctrlWords (pollsDone k) = [] ∧ dataBytes (pollsDone k) = [] ∧ dataReads (pollsDone k) = [] ∧
      bufReads (pollsDone k) = [] ∧ bufWrites (pollsDone k) = [] ∧ finishes (pollsDone k) = [] :=
  readers_pollsTimeout (k - 1)

/-- A command that returns a status is the last to have done so; one that returns none leaves the last status (R46). -/
@[simp] theorem lastStatus_finish (c : Byte) : lastStatus (.finished (some c) :: es) = some c := rfl
@[simp] theorem lastStatus_finishQuiet : lastStatus (.finished none :: es) = lastStatus es := rfl

/-- Events among which no command ends leave the last status. -/
theorem lastStatus_append_of_no_finish (h : finishes es = []) : lastStatus (es ++ fs) = lastStatus fs := by
  simp [lastStatus, h]

end Sys2Proof.Machine
end

