-- ==== Sys2Proof/Tests/Slice0.lean ====
section
/-! SUPPORT. The model's own tests. Expected values are the vectors of spec/95_test_vectors.md (cited by their ids) and words
written out from spec/30_encoding.md R111 to R119. -/

namespace Sys2Proof.Tests

open Sys2Proof.Machine

/-! ## WellFormed smoke test (R121) -/

theorem test_wf_refuses_zero_clock : (Instr.configure 0 true).wf = false := by decide
theorem test_wf_allows_clock_1 : (Instr.configure 1 false).wf = true := by decide

/-! ## Decoder (section 2.1; the words of R115 to R119 written out) -/

theorem test_decode_configure : decode 0x10010064 = .ok (.configure 100 true) := by decide
theorem test_decode_configure_400 : decode 0x10000190 = .ok (.configure 400 false) := by decide
theorem test_decode_begin : decode 0x20500000 = .ok (.beginTrans 0x50) := by decide
theorem test_decode_begin_127 : decode 0x207F0000 = .ok (.beginTrans 127) := by decide
theorem test_decode_send : decode 0x30000010 = .ok (.send 0x10) := by decide
theorem test_decode_wrblk : decode 0x40501002 = .ok (.wrblk 0x50 0x10 2) := by decide
theorem test_decode_wrblk_top : decode 0x407FFFFF = .ok (.wrblk 127 0xFF 255) := by decide
theorem test_decode_rdblk : decode 0x5050100E = .ok (.rdblk 0x50 0x10 14) := by decide
theorem test_decode_stop : decode 0x60000000 = .ok .stop := by decide
theorem test_decode_reset : decode 0x70000000 = .ok .reset := by decide

theorem test_decode_illegal :
    decode 0x10010000 = .error .zeroClock ∧ decode 0x10020064 = .error .mustBeZero ∧
      decode 0x11010064 = .error .mustBeZero ∧ decode 0x20800000 = .error .mustBeZero ∧
      decode 0x20500001 = .error .mustBeZero ∧ decode 0x30000100 = .error .mustBeZero ∧
      decode 0x40D01002 = .error .mustBeZero ∧ decode 0x60000001 = .error .mustBeZero ∧
      decode 0x7F000000 = .error .mustBeZero ∧ decode 0x00000001 = .error (.reservedOpcode 0) ∧
      decode 0x80000000 = .error (.reservedOpcode 8) ∧ decode 0xFFFFFFFF = .error (.reservedOpcode 15) := by decide

theorem test_encode :
    encode (.configure 100 true) = 0x10010064 ∧ encode (.beginTrans 0x50) = 0x20500000 ∧
      encode (.send 0x10) = 0x30000010 ∧ encode (.wrblk 0x50 0x10 2) = 0x40501002 ∧
      encode (.rdblk 0x50 0x10 14) = 0x5050100E ∧ encode .stop = 0x60000000 ∧ encode .reset = 0x70000000 := by decide

theorem test_table_word : decodeTableWord 32 0x40501002 = some (.wrblk 0x50 0x10 2) := by decide

/-! ## Values on the register interface (section 2.1) -/

theorem test_addrByte :
    addrByte 0x50 .write = 0xA0 ∧ addrByte 0x50 .read = 0xA1 ∧ addrByte 0 .write = 0 ∧ addrByte 0 .read = 1 ∧
      addrByte 127 .write = 0xFE ∧ addrByte 127 .read = 0xFF ∧ addrByte 0x68 .read = 0xD1 := by decide

theorem test_maskStatus :
    maskStatus defaultConfig 0x0B = 0x08 ∧ maskStatus defaultConfig 0x1F = 0x18 ∧
      maskStatus defaultConfig 0xFF = 0xF8 ∧ maskStatus defaultConfig 0x07 = 0 := by decide

/-- R12's examples and V5, V6, V7. -/
theorem test_divisor :
    divisor (.reference 16000) 100 = some 72 ∧ divisor (.reference 16000) 400 = some 12 ∧
      divisor (.reference 16000) 1000 = some 0 ∧ divisor (.reference 16000) 31 = some 250 ∧
      divisor (.reference 16000) 250 = some 24 ∧ divisor (.reference 16000) 30 = none ∧
      divisor (.reference 16000) 1001 = none := by decide

theorem test_default_config_wf : defaultConfig.wf = true := by decide

/-! ## Single steps -/

/-- An outcome meets a check. -/
def nextIs (o : Host.Outcome State Fault Refusal) (p : State → Bool) : Bool :=
  match o with
  | .next s => p s
  | .fault _ => false
  | .refused _ => false

theorem of_nextIs {o : Host.Outcome State Fault Refusal} {p : State → Bool} (h : nextIs o p = true) :
    ∃ t, o = .next t ∧ p t = true := by
  cases o with
  | next s => exact ⟨s, rfl, h⟩
  | fault f => cases h
  | refused r => cases h

/-- The block after V1 (CONFIGURE 100, 1), with PERIPH's coming moves and a buffer; the first `stay` is the moment before
the command's first access, at which PERIPH is enabled. -/
def configured (moves : List (List PeriphMove)) (m : Memory) : State :=
  { State.reset with en := true, div := 0x48, pu := true, script := .stay :: moves.flatten, buf := m }

/-- `D(k, s, d)`. -/
def answer (k : Nat) (stat data : Byte) : List PeriphMove := Completion.moves { k := k, stat := stat, data := data }

/-- `D(1, s, d)`. -/
def ok (stat data : Byte) : List PeriphMove := answer 1 stat data

/-- `T`. -/
def timeOut : List PeriphMove := timeoutMoves 250

/-- V1: DIV, PU, CTRL, FLAG, and the order of the three writes. -/
theorem test_configure_v1 :
    nextIs (exec (.configure 100 true) State.reset) (fun t =>
      t.div == 0x48 && t.pu && t.en && !t.sta && !t.flag && !t.resultValid && t.trace ==
        [.finished none, .ioWrite .ctrl 0x04, .ioWrite .pullup 0x01, .ioWrite .div 0x48, .issued 0x10010064]) := by
  decide

/-- V6: a clock rate with no divisor writes a drawn byte. -/
theorem test_configure_v6 :
    exec (.configure 30 true) State.reset = .next (runConfigure (accepted (.configure 30 true) State.reset)) ∧
    (runConfigure (accepted (.configure 30 true) State.reset)).div = Config.freeByte 0 := ⟨rfl, rfl⟩

/-- V10. -/
theorem test_begin_v10 :
    nextIs (exec (.beginTrans 0x50) (configured [ok 0x08 0, answer 2 0x18 7] [])) (fun t =>
      t.result == 0 && t.ph == .idle && t.flag && t.stat == 0x18 && t.data == 7 && t.trace ==
        [.finished (some 0), .ioRead .stat 0x18, .poll true, .poll false, .ioWrite .ctrl 0x84, .ioWrite .data 0xA0,
          .ioRead .stat 0x08, .poll true, .ioWrite .ctrl 0xA4, .issued 0x20500000]) := by decide +kernel

/-- S4: three attempts on an always-nacking device. -/
theorem test_begin_s4 :
    nextIs (exec (.beginTrans 0x50)
        (configured [ok 8 0, ok 0x20 0, ok 0x10 0, ok 0x20 0, ok 0x10 0, ok 0x20 0] [])) (fun t =>
      t.result == 4 && t.retry == 0 && t.flag && t.script == [] &&
        t.trace.count (.ioWrite .ctrl 0xA4) == 3 && t.trace.count (.ioWrite .data 0xA0) == 3) := by decide +kernel

/-- V27a and V27b; the second `stay` is the moment between the DATA write and the trigger. -/
theorem test_send_v27 :
    nextIs (exec (.send 0x10) (configured [[.stay], ok 0x28 0] [])) (fun t => t.result == 0 && t.trace ==
        [.finished (some 0), .ioRead .stat 0x28, .poll true, .ioWrite .ctrl 0x84, .ioWrite .data 0x10,
          .issued 0x30000010]) = true ∧
    nextIs (exec (.send 0x10) (configured [[.stay], ok 0x30 0] [])) (fun t => t.result == 2) = true := by decide +kernel

/-- V30. -/
theorem test_wrblk_v30 :
    nextIs (exec (.wrblk 0x50 0x10 2)
        (configured [ok 8 0, ok 0x18 0, ok 0x28 0, ok 0x28 0, ok 0x28 0] [(0, 0xAB), (1, 0xCD)])) (fun t =>
      t.result == 0 && t.idx == 2 && t.flag && t.trace.reverse ==
        [.issued 0x40501002, .ioWrite .ctrl 0xA4, .poll true, .ioRead .stat 0x08, .ioWrite .data 0xA0,
          .ioWrite .ctrl 0x84, .poll true, .ioRead .stat 0x18, .ioWrite .data 0x10, .ioWrite .ctrl 0x84, .poll true,
          .ioRead .stat 0x28, .bufRead 0 0xAB, .ioWrite .data 0xAB, .ioWrite .ctrl 0x84, .poll true, .ioRead .stat 0x28,
          .bufRead 1 0xCD, .ioWrite .data 0xCD, .ioWrite .ctrl 0x84, .poll true, .ioRead .stat 0x28,
          .finished (some 0)]) := by decide +kernel

/-- U16: WRBLK reads a byte that the host never wrote. -/
theorem test_wrblk_no_value :
    (match exec (.wrblk 0x50 0x10 1) (configured [ok 8 0, ok 0x18 0, ok 0x28 0] []) with
      | .fault f => f == .bufNoValue 0
      | _ => false) = true := by decide +kernel

/-- V40, its stop timing out. -/
theorem test_rdblk_v40 :
    nextIs (exec (.rdblk 0x50 0x10 2)
        (configured [ok 8 0, ok 0x18 0, ok 0x28 0, ok 0x10 0, ok 0x40 0, ok 0x50 0x12, ok 0x58 0x34, timeOut]
          [(0, 0xEE), (1, 0xEE), (2, 0xEE)])) (fun t =>
      t.result == 0 && t.buf == [(0, 0x12), (1, 0x34), (2, 0xEE)] && t.sto && !t.flag && t.script == [] &&
        t.trace.count (.poll false) == 250 && (t.trace.reverse.filter fun e => e != .poll false) ==
          [.issued 0x50501002, .ioWrite .ctrl 0xA4, .poll true, .ioRead .stat 0x08, .ioWrite .data 0xA0,
            .ioWrite .ctrl 0x84, .poll true, .ioRead .stat 0x18, .ioWrite .data 0x10, .ioWrite .ctrl 0x84, .poll true,
            .ioRead .stat 0x28, .ioWrite .ctrl 0xA4, .poll true, .ioRead .stat 0x10, .ioWrite .data 0xA1,
            .ioWrite .ctrl 0x84, .poll true, .ioRead .stat 0x40, .ioWrite .ctrl 0xC4, .poll true, .ioRead .stat 0x50,
            .ioRead .data 0x12, .bufWrite 0 0x12, .ioWrite .ctrl 0x84, .poll true, .ioRead .stat 0x58,
            .ioRead .data 0x34, .bufWrite 1 0x34, .ioWrite .ctrl 0x94, .finished (some 0)]) := by decide +kernel

/-- V45: arbitration lost on byte 1. -/
theorem test_rdblk_v45 :
    nextIs (exec (.rdblk 0x50 0x10 3)
        (configured [ok 8 0, ok 0x18 0, ok 0x28 0, ok 0x10 0, ok 0x40 0, ok 0x50 0x11, ok 0x38 0x99, ok 0 0]
          [(0, 0xEE), (1, 0xEE), (2, 0xEE)])) (fun t =>
      t.result == 0x38 && t.buf == [(0, 0x11), (1, 0xEE), (2, 0xEE)]) := by decide +kernel

/-- V60 and V61. -/
theorem test_stop_v60 :
    nextIs (exec .stop (configured [answer 4 0 0] [])) (fun t => t.result == 0 && t.flag && t.sto &&
        t.trace == [.finished (some 0), .poll true, .poll false, .poll false, .poll false, .ioWrite .ctrl 0x94,
          .issued 0x60000000]) = true ∧
    nextIs (exec .stop (configured [timeOut] [])) (fun t => t.result == 1 && !t.flag && t.poll == 0 &&
        t.trace.count (.poll false) == 250) = true := by decide +kernel

/-- V65: RESET keeps DIV, PU, STAT, DATA and RESULT. -/
theorem test_reset_v65 :
    nextIs (exec .reset { configured [] [] with flag := true, stat := 0x20, statWritten := true, data := 9, result := 4, resultValid := true })
      (fun t => !t.en && !t.flag && t.div == 0x48 && t.pu && t.stat == 0x20 && t.data == 9 && t.result == 4 &&
        t.trace == [.finished none, .ioWrite .ctrl 0x00, .issued 0x70000000]) := by decide +kernel

/-! ## The step around exec -/

/-- The word placed by withFetchWord is the first command run after reset. -/
theorem test_step_runs_word :
    step (State.reset.withFetchWord 32 0x20500000) = exec (.beginTrans 0x50) State.reset := rfl

/-- Section 2.1, refusal order: Busy before Illegal. -/
theorem test_step_busy :
    step { State.reset with ph := .aStartWait, host := [.issue 0] } = .refused .busy := rfl

theorem test_step_illegal :
    step { State.reset with host := [.issue 0x60000001] } = .refused (.illegal .mustBeZero) := rfl

/-- R46: RESULT is not readable before a status-returning command has completed. -/
theorem test_result_read_too_early : step { State.reset with host := [.resultRead] } = .fault .resultNoValue := rfl

/-- V67 and R334: after RESET from reset RESULT still holds nothing; a status once returned stays readable. -/
theorem test_result_read_after_reset :
    nextIs (exec .reset State.reset) (fun t =>
      match step { t with host := [.resultRead] } with
      | .fault f => f == .resultNoValue
      | _ => false) = true ∧
    nextIs (exec .reset { configured [] [] with result := 4, resultValid := true }) (fun t =>
      nextIs (step { t with host := [.resultRead] }) (fun u => u.trace.head? == some (.hostResult 4))) = true := by
  decide +kernel

/-- V27a access by access: six steps of `present` reach the state that one step of `issue` reaches. -/
theorem test_present_agrees :
    (match presentCommand (.send 0x10) (configured [[.stay], ok 0x28 0] []), exec (.send 0x10) (configured [[.stay], ok 0x28 0] []) with
      | .next s, .next t => nextIs (seqRun 4 s) (fun u => u == t)
      | _, _ => false) = true := by decide +kernel

/-! ## Witnesses: for each statement with hypotheses, a concrete state and operands that meet them, at the boundaries of each
clause's range. A theorem is named after its statement. -/

/-- `D(k, s, d)` as data. -/
def ans (k : Nat) (stat : Byte) : Completion := { k := k, stat := stat, data := 7 }

/-- `configured` with the answers of a list of WAITs. -/
def answered (cs : List Completion) (m : Memory) : State := configured (cs.map Completion.moves) m

/-- A block in the middle of BEGIN's start WAIT, at its last poll. -/
def busy : State :=
  { configured [] [] with ph := .aStartWait, seg := .bt, opc := 2, poll := 1, retry := 2, sta := true }

/-- A start answered at once and an address byte answered at the last read. -/
def acked (st : Byte) : Completion × Completion := (ans 1 0x08, ans 250 st)

theorem witness_DecodeEncode :
    (Instr.configure 1 false).wf = true ∧ (Instr.configure 65535 true).wf = true ∧
      (Instr.wrblk 127 255 255).wf = true ∧ Instr.reset.wf = true := by decide

theorem witness_EncodeDecode :
    decode 0x1001FFFF = .ok (.configure 65535 true) ∧ decode 0x10000001 = .ok (.configure 1 false) ∧
      decode 0x507FFFFF = .ok (.rdblk 127 255 255) := by decide

theorem witness_OperandSlices : decode 0x300000FF = .ok (.send 255) ∧ decode 0x20000000 = .ok (.beginTrans 0) := by decide

theorem witness_IllegalRefused :
    State.reset.ph = .idle ∧ ¬ legalWord 0x7F000000 ∧ legalWord 0x10000001 ∧
      { State.reset with host := [.issue 0x7F000000] }.host = .issue 0x7F000000 :: [] :=
  ⟨rfl, fun h => absurd h.2.2.1 (by decide), ⟨by decide, by decide, by decide, by decide, by decide⟩, rfl⟩

theorem witness_CtrlWrite :
    (0x94 : Byte).getLsbD State.reset.cfg.bits.bInt = true ∧ (0x00 : Byte).getLsbD State.reset.cfg.bits.bEn = false ∧
      (0x04 : Byte).getLsbD State.reset.cfg.bits.bInt = false ∧ (0x04 : Byte).getLsbD State.reset.cfg.bits.bEn = true ∧
      triggersPhase State.reset.cfg.bits 0x84 = true := by decide

theorem witness_CtrlRead :
    State.reset.cfg.bits.wf = true ∧
      (0 : Fin 8) ∉ [State.reset.cfg.bits.bEn, State.reset.cfg.bits.bSta, State.reset.cfg.bits.bSto,
        State.reset.cfg.bits.bInt, State.reset.cfg.bits.bEa] := by decide

theorem witness_PeriphStepRule :
    State.reset.en = false ∧ { busy with flag := true }.flag = true ∧ busy.flag = false ∧ busy.en = true ∧
      { busy with script := [.complete 0xFF 0] }.script = .complete 0xFF 0 :: [] ∧
      busy.script = .stay :: [] ∧ { busy with script := [] }.script = [] := by decide

/-- A block at the first poll of BEGIN's start WAIT, PERIPH answering at read `k`. -/
def polling (k : Nat) : State := { busy with poll := 250, script := (ans k 0).moves }

theorem witness_WaitDone :
    ((polling 1).flag = false ∧ (polling 1).en = true ∧ (ans 1 0).fits (polling 1).poll.toNat = true ∧
      (polling 1).script = (ans 1 0).moves ++ []) ∧
    ((polling 250).flag = false ∧ (polling 250).en = true ∧ (ans 250 0).fits (polling 250).poll.toNat = true ∧
      (polling 250).script = (ans 250 0).moves ++ []) := by decide +kernel

theorem witness_WaitTimeout :
    busy.flag = false ∧ busy.en = true ∧ busy.script = timeoutMoves busy.poll.toNat ++ [] := by decide

theorem witness_ConfigureResult :
    State.reset.cfg.wf = true ∧ (31 : BitVec 16) ≠ 0 ∧ State.reset.ph = .idle ∧
      divisor State.reset.cfg.divisor 31 = some 250 ∧ divisor State.reset.cfg.divisor 1001 = none ∧
      State.reset.cfg.cw.enable = 1#8 <<< State.reset.cfg.bits.bEn.val := by decide

theorem witness_ResetResult : State.reset.cfg.wf = true ∧ State.reset.ph = .idle := by decide

theorem witness_ResetIdempotent :
    ∃ t u, State.reset.cfg.wf = true ∧ exec .reset State.reset = .next t ∧ exec .reset t = .next u :=
  ⟨_, _, by decide, rfl, rfl⟩

theorem witness_ConfigureIdempotent :
    ∃ t u, divisor State.reset.cfg.divisor 1000 = some 0 ∧ exec (.configure 1000 true) State.reset = .next t ∧
      exec (.configure 1000 true) t = .next u :=
  ⟨_, _, by decide, rfl, rfl⟩

theorem witness_StopResult : (configured [] []).cfg.wf = true ∧ (configured [] []).ph = .idle := by decide

theorem witness_StopBothOutcomes : (configured [] []).cfg.wf = true ∧ (configured [] []).ph = .idle := by decide

theorem witness_SendResult : (configured [] []).cfg.wf = true ∧ (configured [] []).ph = .idle := by decide

/-- The state of V27. -/
def sendState (c : Completion) : State := configured [[.stay], c.moves] []

theorem witness_SendAnswered :
    (sendState (ans 250 0x28)).cfg.wf = true ∧ (sendState (ans 250 0x28)).ph = .idle ∧
      (ans 250 0x28).fits (sendState (ans 250 0x28)).cfg.pollLimit.toNat = true ∧
      (periphTurn (periphTurn (sendState (ans 250 0x28)))).script = (ans 250 0x28).moves ++ [] :=
  ⟨by decide, rfl, rfl, rfl⟩

theorem witness_BeginCompletes : State.reset.ph = .idle := rfl

/-- A block that PERIPH answers with these attempts of ADDRESS. -/
def attempted (as : List (Completion × Completion)) : State := configured (as.map attemptMoves) []

/-- Two not-acknowledges and an acknowledge: the most that R165 retries. -/
def ackState : State := attempted ([acked 0x20, acked 0x20] ++ [acked 0x18])

theorem witness_BeginAcked :
    ackState.cfg.wf = true ∧ ackState.ph = .idle ∧ [acked 0x20, acked 0x20].length ≤ ackState.cfg.addrRetries.toNat ∧
      (∀ a ∈ [acked 0x20, acked 0x20] ++ [acked 0x18],
        a.1.fits ackState.cfg.pollLimit.toNat = true ∧ a.2.fits ackState.cfg.pollLimit.toNat = true ∧
          isStartStatus ackState.cfg.status (a.1.stat &&& ackState.cfg.statusMask) = true) ∧
      (∀ a ∈ [acked 0x20, acked 0x20], a.2.stat &&& ackState.cfg.statusMask = ackState.cfg.status.slawNack) ∧
      (acked 0x18).2.stat &&& ackState.cfg.statusMask = ackState.cfg.status.slawAck ∧
      (periphTurn ackState).script = ([acked 0x20, acked 0x20] ++ [acked 0x18]).flatMap attemptMoves ++ [] := by
  decide +kernel

/-- Three not-acknowledges. -/
def nackState : State := attempted [acked 0x20, acked 0x20, acked 0x20]

theorem witness_BeginNacked :
    nackState.cfg.wf = true ∧ nackState.ph = .idle ∧
      [acked 0x20, acked 0x20, acked 0x20].length = nackState.cfg.addrRetries.toNat + 1 ∧
      (∀ a ∈ [acked 0x20, acked 0x20, acked 0x20],
        a.1.fits nackState.cfg.pollLimit.toNat = true ∧ a.2.fits nackState.cfg.pollLimit.toNat = true ∧
          isStartStatus nackState.cfg.status (a.1.stat &&& nackState.cfg.statusMask) = true ∧
          a.2.stat &&& nackState.cfg.statusMask = nackState.cfg.status.slawNack) ∧
      (periphTurn nackState).script = [acked 0x20, acked 0x20, acked 0x20].flatMap attemptMoves ++ [] := by
  decide +kernel

/-- PERIPH never completes the first WAIT. -/
def deaf : State := configured [timeOut] []

/-- The start is answered, at the last read, with S_ARB_LOST. -/
def lost : State := answered [ans 250 0x38] []

theorem witness_BeginStartFails :
    (deaf.cfg.wf = true ∧ deaf.ph = .idle ∧
      (periphTurn deaf).script = timeoutMoves deaf.cfg.pollLimit.toNat ++ []) ∧
    (lost.cfg.wf = true ∧ lost.ph = .idle ∧ (ans 250 0x38).fits lost.cfg.pollLimit.toNat = true ∧
      isStartStatus lost.cfg.status ((ans 250 0x38).stat &&& lost.cfg.statusMask) = false ∧
      (periphTurn lost).script = (ans 250 0x38).moves ++ []) := by decide +kernel

/-- A good start, then no answer to the address byte. -/
def deafAfterStart : State := configured [(ans 250 0x10).moves, timeOut] []

/-- A good start, then the other direction's acknowledge. -/
def oddStatus : State := answered [ans 250 0x10, ans 1 0x40] []

theorem witness_BeginAddressFails :
    (deafAfterStart.cfg.wf = true ∧ deafAfterStart.ph = .idle ∧
      (ans 250 0x10).fits deafAfterStart.cfg.pollLimit.toNat = true ∧
      isStartStatus deafAfterStart.cfg.status ((ans 250 0x10).stat &&& deafAfterStart.cfg.statusMask) = true ∧
      (periphTurn deafAfterStart).script =
        (ans 250 0x10).moves ++ timeoutMoves deafAfterStart.cfg.pollLimit.toNat ++ []) ∧
    (oddStatus.cfg.wf = true ∧ oddStatus.ph = .idle ∧ (ans 250 0x10).fits oddStatus.cfg.pollLimit.toNat = true ∧
      isStartStatus oddStatus.cfg.status ((ans 250 0x10).stat &&& oddStatus.cfg.statusMask) = true ∧
      (ans 1 0x40).fits oddStatus.cfg.pollLimit.toNat = true ∧
      (ans 1 0x40).stat &&& oddStatus.cfg.statusMask ≠ oddStatus.cfg.status.slawAck ∧
      (ans 1 0x40).stat &&& oddStatus.cfg.statusMask ≠ oddStatus.cfg.status.slawNack ∧
      (periphTurn oddStatus).script = (ans 250 0x10).moves ++ (ans 1 0x40).moves ++ []) := by decide +kernel

/-- LEN = 0 asks nothing of BUF; LEN = 2 asks for two bytes. -/
theorem witness_WrblkCompletes :
    (configured [] []).ph = .idle ∧ bufReady (configured [] []) (0 : Byte).toNat ∧
      bufReady (configured [] [(0, 0xAB), (1, 0xCD)]) (2 : Byte).toNat :=
  ⟨rfl, fun i h => absurd h (Nat.not_lt_zero i), fun i h => by
    have h2 : i < 2 := h
    interval_cases i <;> rfl⟩

/-- One byte in BUF, and PERIPH's acknowledges of a WRBLK of it. -/
def writeState : State :=
  configured [attemptMoves (acked 0x18), [ans 1 0x28, ans 250 0x28].flatMap Completion.moves] [(0, 0xAB)]

theorem witness_WrblkAcked :
    writeState.cfg.wf = true ∧ writeState.ph = .idle ∧
      (acked 0x18).1.fits writeState.cfg.pollLimit.toNat = true ∧
      isStartStatus writeState.cfg.status ((acked 0x18).1.stat &&& writeState.cfg.statusMask) = true ∧
      (acked 0x18).2.fits writeState.cfg.pollLimit.toNat = true ∧
      (acked 0x18).2.stat &&& writeState.cfg.statusMask = writeState.cfg.status.slawAck ∧
      [ans 1 0x28, ans 250 0x28].length = (1 : Byte).toNat + 1 ∧
      (∀ c ∈ [ans 1 0x28, ans 250 0x28], c.fits writeState.cfg.pollLimit.toNat = true ∧
        c.stat &&& writeState.cfg.statusMask = writeState.cfg.status.txdAck) ∧
      [(0xAB : Byte)].length = (1 : Byte).toNat ∧
      (∀ i (h : i < [(0xAB : Byte)].length), Memory.read writeState.buf i = some [(0xAB : Byte)][i]) ∧
      (periphTurn writeState).script =
        attemptMoves (acked 0x18) ++ [ans 1 0x28, ans 250 0x28].flatMap Completion.moves ++ [] := by decide +kernel

/-- A block with one byte in its buffer, and PERIPH's answers to a WRBLK of that byte, each D(1, s, d). -/
def oneByte : State := configured [ok 8 0, ok 0x18 0, ok 0x28 0, ok 0x28 0] [(0, 0xAB)]

theorem witness_WrblkIsBeginAndSends :
    ∃ t, oneByte.cfg.wf = true ∧ [(0xAB : Byte)].length = (1 : Byte).toNat ∧
      (∀ i (h : i < [(0xAB : Byte)].length), Memory.read oneByte.buf i = some [(0xAB : Byte)][i]) ∧
      exec (.wrblk 0x50 0x10 1) oneByte = .next t := by
  obtain ⟨t, h, -⟩ := of_nextIs (o := exec (.wrblk 0x50 0x10 1) oneByte) (p := fun _ => true) (by decide +kernel)
  exact ⟨t, by decide, rfl, by decide, h⟩

theorem witness_WrblkReadsInOrder :
    ∃ t evs, exec (.wrblk 0x50 0x10 1) oneByte = .next t ∧ t.trace = evs ++ oneByte.trace := by
  obtain ⟨t, h, -⟩ := of_nextIs (o := exec (.wrblk 0x50 0x10 1) oneByte) (p := fun _ => true) (by decide +kernel)
  exact ⟨t, t.trace, h, (List.append_nil _).symm⟩

theorem witness_ExecFaults :
    (match exec (.wrblk 0x50 0x10 2) oneByte with
      | .fault f => f == .bufNoValue 1
      | _ => false) = true ∧
    (match exec (.wrblk 0x50 0x10 1) { oneByte with buf := [(1, 0)] } with
      | .fault f => f == .bufNoValue 0
      | _ => false) = true := by decide +kernel

theorem witness_RdblkCompletes : (configured [] []).ph = .idle := rfl

/-- The answers of RDBLK's two addressing phases, register address and received bytes; a status 0x5F masks to S_RXD_NACK. -/
def readScript (rx : List Completion) : List PeriphMove :=
  attemptMoves (acked 0x18) ++ (ans 1 0x28).moves ++ attemptMoves (acked 0x40) ++ rx.flatMap Completion.moves

/-- PERIPH's answers to an RDBLK of two bytes. -/
def readState : State := configured [readScript [ans 1 0x50, ans 250 0x5F]] []

theorem witness_RdblkReceives :
    readState.cfg.wf = true ∧ readState.ph = .idle ∧
      (acked 0x18).1.fits readState.cfg.pollLimit.toNat = true ∧
      isStartStatus readState.cfg.status ((acked 0x18).1.stat &&& readState.cfg.statusMask) = true ∧
      (acked 0x18).2.fits readState.cfg.pollLimit.toNat = true ∧
      (acked 0x18).2.stat &&& readState.cfg.statusMask = readState.cfg.status.slawAck ∧
      (ans 1 0x28).fits readState.cfg.pollLimit.toNat = true ∧
      (ans 1 0x28).stat &&& readState.cfg.statusMask = readState.cfg.status.txdAck ∧
      (acked 0x40).1.fits readState.cfg.pollLimit.toNat = true ∧
      isStartStatus readState.cfg.status ((acked 0x40).1.stat &&& readState.cfg.statusMask) = true ∧
      (acked 0x40).2.fits readState.cfg.pollLimit.toNat = true ∧
      (acked 0x40).2.stat &&& readState.cfg.statusMask = readState.cfg.status.slarAck ∧
      [ans 1 0x50, ans 250 0x5F].length = (2 : Byte).toNat ∧
      (∀ c ∈ [ans 1 0x50, ans 250 0x5F], c.fits readState.cfg.pollLimit.toNat = true ∧
        isRxStatus readState.cfg.status (c.stat &&& readState.cfg.statusMask) = true) ∧
      (periphTurn readState).script =
        attemptMoves (acked 0x18) ++ (ans 1 0x28).moves ++ attemptMoves (acked 0x40) ++
          [ans 1 0x50, ans 250 0x5F].flatMap Completion.moves ++ [] := by decide +kernel

/-- A masked status of 0 at byte 1 of 2. -/
def badState : State := configured [readScript [ans 1 0x50], (ans 250 0x07).moves] []

theorem witness_RdblkUnexpectedStatus :
    badState.cfg.wf = true ∧ badState.ph = .idle ∧
      (acked 0x18).1.fits badState.cfg.pollLimit.toNat = true ∧
      isStartStatus badState.cfg.status ((acked 0x18).1.stat &&& badState.cfg.statusMask) = true ∧
      (acked 0x18).2.fits badState.cfg.pollLimit.toNat = true ∧
      (acked 0x18).2.stat &&& badState.cfg.statusMask = badState.cfg.status.slawAck ∧
      (ans 1 0x28).fits badState.cfg.pollLimit.toNat = true ∧
      (ans 1 0x28).stat &&& badState.cfg.statusMask = badState.cfg.status.txdAck ∧
      (acked 0x40).1.fits badState.cfg.pollLimit.toNat = true ∧
      isStartStatus badState.cfg.status ((acked 0x40).1.stat &&& badState.cfg.statusMask) = true ∧
      (acked 0x40).2.fits badState.cfg.pollLimit.toNat = true ∧
      (acked 0x40).2.stat &&& badState.cfg.statusMask = badState.cfg.status.slarAck ∧
      [ans 1 0x50].length < (2 : Byte).toNat ∧
      (∀ c ∈ [ans 1 0x50], c.fits badState.cfg.pollLimit.toNat = true ∧
        isRxStatus badState.cfg.status (c.stat &&& badState.cfg.statusMask) = true) ∧
      (ans 250 0x07).fits badState.cfg.pollLimit.toNat = true ∧
      isRxStatus badState.cfg.status ((ans 250 0x07).stat &&& badState.cfg.statusMask) = false ∧
      (periphTurn badState).script =
        attemptMoves (acked 0x18) ++ (ans 1 0x28).moves ++ attemptMoves (acked 0x40) ++
          [ans 1 0x50].flatMap Completion.moves ++ (ans 250 0x07).moves ++ [] := by decide +kernel

theorem witness_RdblkStopsAfterFailure :
    (deaf.cfg.wf = true ∧ deaf.ph = .idle ∧
      (periphTurn deaf).script = timeoutMoves deaf.cfg.pollLimit.toNat ++ []) ∧
    (lost.cfg.wf = true ∧ lost.ph = .idle ∧ (ans 250 0x38).fits lost.cfg.pollLimit.toNat = true ∧
      isStartStatus lost.cfg.status ((ans 250 0x38).stat &&& lost.cfg.statusMask) = false ∧
      (periphTurn lost).script = (ans 250 0x38).moves ++ []) := by decide +kernel

/-- A last attempt of ADDRESS for each way it ends, the start answered at the last read; `odd` is its address status where it
ends with an address status. -/
def lastOf (ack odd : Byte) : AddrEnd → List Answer
  | .acked => [.done (ans 250 0x10), .done (ans 1 ack)]
  | .startTimeout => [.timeout]
  | .startStatus => [.done (ans 250 0x38)]
  | .addrTimeout => [.done (ans 250 0x10), .timeout]
  | .addrStatus => [.done (ans 250 0x10), .done (ans 1 odd)]

/-- A block with one byte in BUF and these moves of PERIPH to come. -/
def facing (moves : List PeriphMove) : State := configured [moves] [(0, 0xAB)]

/-- The answers of an ADDRESS in the write direction, after two not-acknowledges, that ends as `e`. -/
def writeEnd (e : AddrEnd) : List PeriphMove := addressMoves defaultConfig [acked 0x20, acked 0x20] (lastOf 0x18 0x20 e)

/-- The same in the read direction. -/
def readEnd (e : AddrEnd) : List PeriphMove := addressMoves defaultConfig [acked 0x48, acked 0x48] (lastOf 0x40 0x48 e)

/-- Every end after ADDR_RETRIES not-acknowledges, the last of them with no retry left, and an odd status at the first attempt. -/
theorem witness_BeginEndCodes :
    (∀ e ∈ [AddrEnd.acked, .startTimeout, .startStatus, .addrTimeout, .addrStatus],
      (facing (writeEnd e)).cfg.wf = true ∧ (facing (writeEnd e)).ph = .idle ∧
        addressAnswers (facing (writeEnd e)).cfg .write e [acked 0x20, acked 0x20] (lastOf 0x18 0x20 e) = true ∧
        (periphTurn (facing (writeEnd e))).script =
          addressMoves (facing (writeEnd e)).cfg [acked 0x20, acked 0x20] (lastOf 0x18 0x20 e) ++ []) ∧
    addressAnswers defaultConfig .write .addrStatus [] (lastOf 0x18 0x40 .addrStatus) = true ∧
    addressAnswers defaultConfig .write .addrStatus [] (lastOf 0x18 0x20 .addrStatus) = false := by decide +kernel

/-- The premises of the four clauses, LEN being 1: ADDRESS fails (at each step), the register address fails, byte 0 fails, none
fails. -/
theorem witness_WrblkEndCodes :
    defaultConfig.wf = true ∧
    (∀ a ∈ [Answer.done (ans 1 0x28), .done (ans 250 0x2F)],
      a.fits defaultConfig.pollLimit.toNat = true ∧ txAcked defaultConfig a = true) ∧
    (∀ a ∈ [Answer.timeout, .done (ans 250 0x30)],
      a.fits defaultConfig.pollLimit.toNat = true ∧ txAcked defaultConfig a = false) ∧
    (∀ i (h : i < [(0xAB : Byte)].length), Memory.read (facing []).buf i = some [(0xAB : Byte)][i]) ∧
    (∀ e ∈ [AddrEnd.startTimeout, .startStatus, .addrTimeout, .addrStatus], e ≠ .acked ∧
      addressAnswers (facing (writeEnd e)).cfg .write e [acked 0x20, acked 0x20] (lastOf 0x18 0x20 e) = true ∧
      (periphTurn (facing (writeEnd e))).script = writeEnd e ++ []) ∧
    addressAnswers defaultConfig .write .acked [acked 0x20, acked 0x20] (lastOf 0x18 0x20 .acked) = true ∧
    (periphTurn (facing (writeEnd .acked ++ Answer.moves 250 .timeout))).script =
      writeEnd .acked ++ Answer.moves defaultConfig.pollLimit.toNat .timeout ++ [] ∧
    [(0xAB : Byte)].length ≤ (1 : Byte).toNat ∧
    (periphTurn (facing (writeEnd .acked ++
        ([Answer.done (ans 1 0x28)] ++ [Answer.done (ans 250 0x30)]).flatMap (Answer.moves 250)))).script =
      writeEnd .acked ++
        ([Answer.done (ans 1 0x28)] ++ [Answer.done (ans 250 0x30)]).flatMap (Answer.moves defaultConfig.pollLimit.toNat) ++ [] ∧
    [Answer.done (ans 1 0x28), .done (ans 250 0x2F)].length = (1 : Byte).toNat + 1 ∧
    (periphTurn (facing (writeEnd .acked ++
        [Answer.done (ans 1 0x28), .done (ans 250 0x2F)].flatMap (Answer.moves 250)))).script =
      writeEnd .acked ++
        [Answer.done (ans 1 0x28), .done (ans 250 0x2F)].flatMap (Answer.moves defaultConfig.pollLimit.toNat) ++ [] ∧
    (∀ moves : List PeriphMove, (facing moves).cfg = defaultConfig ∧ (facing moves).ph = .idle) := by
  refine ⟨by decide, by decide +kernel, by decide +kernel, by decide, by decide +kernel, by decide +kernel,
    by decide +kernel, by decide, by decide +kernel, rfl, by decide +kernel, fun _ => ⟨rfl, rfl⟩⟩

/-- The premises of the three clauses: phase (a) fails (as in witness_WrblkEndCodes, whose states these are), the register
address fails, and phase (b) fails at each step, both phases having used all their own retries. -/
theorem witness_RdblkAddressEnds :
    (facing []).cfg.wf = true ∧ (facing []).ph = .idle ∧
    (∀ e ∈ [AddrEnd.startTimeout, .startStatus, .addrTimeout, .addrStatus], e ≠ .acked ∧
      addressAnswers (facing (writeEnd e)).cfg .write e [acked 0x20, acked 0x20] (lastOf 0x18 0x20 e) = true ∧
      (periphTurn (facing (writeEnd e))).script = writeEnd e ++ [] ∧
      addressAnswers (facing (writeEnd e)).cfg .read e [acked 0x48, acked 0x48] (lastOf 0x40 0x48 e) = true ∧
      (periphTurn (facing (writeEnd .acked ++ Answer.moves 250 (.done (ans 250 0x28)) ++ readEnd e))).script =
        writeEnd .acked ++ Answer.moves defaultConfig.pollLimit.toNat (.done (ans 250 0x28)) ++ readEnd e ++ []) ∧
    addressAnswers defaultConfig .write .acked [acked 0x20, acked 0x20] (lastOf 0x18 0x20 .acked) = true ∧
    (∀ a ∈ [Answer.timeout, .done (ans 250 0x30)], a.fits defaultConfig.pollLimit.toNat = true ∧
      txAcked defaultConfig a = false ∧
      (periphTurn (facing (writeEnd .acked ++ Answer.moves 250 a))).script =
        writeEnd .acked ++ Answer.moves defaultConfig.pollLimit.toNat a ++ []) ∧
    (Answer.done (ans 250 0x28)).fits defaultConfig.pollLimit.toNat = true ∧
    txAcked defaultConfig (.done (ans 250 0x28)) = true := by
  refine ⟨by decide, rfl, by decide +kernel, by decide +kernel, by decide +kernel, by decide +kernel, by decide +kernel⟩

/-- Both phases acknowledged after all their retries, the register address acknowledged. -/
def openedForRead : List PeriphMove := writeEnd .acked ++ Answer.moves 250 (.done (ans 250 0x28)) ++ readEnd .acked

/-- The premises of the two clauses, LEN being 2: two received bytes; one byte and then a timeout. LEN = 0 and no byte meets the
first too. -/
theorem witness_RdblkDataEnds :
    (facing openedForRead).cfg.wf = true ∧ (facing openedForRead).ph = .idle ∧
    addressAnswers defaultConfig .write .acked [acked 0x20, acked 0x20] (lastOf 0x18 0x20 .acked) = true ∧
    (Answer.done (ans 250 0x28)).fits defaultConfig.pollLimit.toNat = true ∧
    txAcked defaultConfig (.done (ans 250 0x28)) = true ∧
    addressAnswers defaultConfig .read .acked [acked 0x48, acked 0x48] (lastOf 0x40 0x48 .acked) = true ∧
    (∀ c ∈ [ans 1 0x50, ans 250 0x5F], rxAccepted defaultConfig c = true) ∧
    [ans 1 0x50, ans 250 0x5F].length = (2 : Byte).toNat ∧
    (periphTurn (facing (openedForRead ++ [ans 1 0x50, ans 250 0x5F].flatMap Completion.moves))).script =
      openedForRead ++ [ans 1 0x50, ans 250 0x5F].flatMap Completion.moves ++ [] ∧
    [ans 1 0x50].length < (2 : Byte).toNat ∧
    (periphTurn (facing (openedForRead ++ [ans 1 0x50].flatMap Completion.moves ++ timeOut))).script =
      openedForRead ++ [ans 1 0x50].flatMap Completion.moves ++ timeoutMoves defaultConfig.pollLimit.toNat ++ [] ∧
    (periphTurn (facing openedForRead)).script = openedForRead ++ ([] : List Completion).flatMap Completion.moves ++ [] := by
  refine ⟨by decide, rfl, by decide +kernel, rfl, rfl, by decide +kernel, by decide +kernel, rfl, by decide +kernel,
    by decide, by decide +kernel, by decide +kernel⟩

theorem witness_RdblkBuffer :
    ∃ t evs, exec (.rdblk 0x50 0x10 0) (configured [readScript [], ok 0 0] []) = .next t ∧
      t.trace = evs ++ (configured [readScript [], ok 0 0] []).trace := by
  obtain ⟨t, h, -⟩ := of_nextIs (o := exec (.rdblk 0x50 0x10 0) (configured [readScript [], ok 0 0] []))
    (p := fun _ => true) (by decide +kernel)
  exact ⟨t, t.trace, h, (List.append_nil _).symm⟩

theorem witness_StepRunsDecoded :
    State.reset.ph = .idle ∧ { State.reset with host := [.issue 0x60000000, .wait] }.host = .issue 0x60000000 :: [.wait] ∧
      decode 0x60000000 = .ok .stop := by decide

theorem witness_RefusalOrder :
    busy.ph ≠ .idle ∧ { busy with host := [.present 0] }.host = .present 0 :: [] ∧ State.reset.ph = .idle ∧
      decode 0 = .error (.reservedOpcode 0) ∧ decode 0x60000000 = .ok .stop := by decide

theorem witness_PresentAccepts :
    State.reset.ph = .idle ∧ { State.reset with host := [.present 0x407FFFFF] }.host = .present 0x407FFFFF :: [] ∧
      decode 0x407FFFFF = .ok (.wrblk 127 255 255) := by decide

theorem witness_AccessStepsRefineCommand :
    oneByte.cfg.wf = true ∧ oneByte.ph = .idle ∧ (Instr.wrblk 0x50 0x10 1).wf = true ∧
      nextIs (exec (.wrblk 0x50 0x10 1) oneByte) (fun _ => true) = true ∧
      (match exec (.wrblk 0x50 0x10 1) { oneByte with buf := [] } with
        | .fault _ => true
        | _ => false) = true := by decide +kernel

/-- The premises of AccessBounds, OnlyConfigureSetsDivAndPu and ResultWrittenByStatusCommands. -/
theorem witness_AccessBounds :
    (∃ t, exec .reset State.reset = .next t) ∧ (∃ t, exec (.configure 400 true) State.reset = .next t) ∧
      nextIs (exec (.wrblk 0x50 0x10 1) oneByte) (fun _ => true) = true :=
  ⟨⟨_, rfl⟩, ⟨_, rfl⟩, by decide +kernel⟩

theorem witness_OnlyConfigureSetsDivAndPu :
    (∀ khz pu, Instr.reset ≠ .configure khz pu) ∧ ∃ t, exec .reset State.reset = .next t :=
  ⟨fun _ _ h => Instr.noConfusion h, ⟨_, rfl⟩⟩

theorem witness_ResultWrittenByStatusCommands :
    (∃ t, exec .reset State.reset = .next t) ∧ ∃ t, exec (.send 0x10) (configured [[.stay], ok 0x28 0] []) = .next t := by
  obtain ⟨t, h, -⟩ := of_nextIs (o := exec (.send 0x10) (configured [[.stay], ok 0x28 0] []))
    (p := fun _ => true) (by decide +kernel)
  exact ⟨⟨_, rfl⟩, t, h⟩

theorem witness_DeadRegisters :
    oneByte.cfg.wf = true ∧ nextIs (exec (.wrblk 0x50 0x10 1) oneByte) (fun _ => true) = true ∧
      nextIs (exec (.wrblk 0x50 0x10 1) (withDead oneByte busy)) (fun t => t.result == 0) = true := by decide +kernel

theorem witness_WorkingRegisters :
    (∃ t, exec .reset State.reset = .next t) ∧ ∃ t, exec (.wrblk 0x50 0x10 1) oneByte = .next t :=
  ⟨⟨_, rfl⟩, witness_WrblkIsBeginAndSends.imp fun _ h => h.2.2.2⟩

theorem witness_ConfigFixed : step State.reset = .next State.reset := rfl

theorem witness_IdleStep : State.reset.ph = .idle ∧ State.reset.host = [] := by decide

/-- A block that has completed a SEND with status 255, the host about to read RESULT. -/
def afterSend : State :=
  { State.reset with resultValid := true, result := 255, trace := [.finished none, .finished (some 255)], host := [.resultRead] }

theorem witness_ResultHistoryStep :
    afterSend.ResultHistory ∧ (∃ t, step afterSend = .next t) ∧ busy.ResultHistory ∧ ∃ t, step busy = .next t :=
  ⟨⟨rfl, fun _ h => Option.some.inj h⟩, ⟨_, rfl⟩, ⟨rfl, fun _ h => nomatch h⟩, ⟨_, rfl⟩⟩

/-- Each clause: a readable RESULT, one that is not readable, a busy block, and port events with and without a status. -/
theorem witness_ResultRead :
    { State.reset with host := [.resultRead] }.host = .resultRead :: [] ∧ State.reset.ph = .idle ∧
      State.reset.resultValid = false ∧ afterSend.resultValid = true ∧ afterSend.ph = .idle ∧
      lastStatus afterSend.trace = some 255 ∧ lastStatus State.reset.trace = none ∧ busy.ph ≠ .idle ∧
      afterSend.ResultHistory ∧ State.reset.ResultHistory :=
  ⟨rfl, rfl, rfl, rfl, rfl, rfl, rfl, by decide, witness_ResultHistoryStep.1, rfl, fun _ h => nomatch h⟩

theorem witness_HostBufferWrite :
    { State.reset with host := [.bufWrite 255 0] }.host = .bufWrite 255 0 :: [] ∧ State.reset.ph = .idle ∧
      busy.ph ≠ .idle := by decide

/-- A busy state meets the invariant: the premises of InvStep, SeqTerminates and AlwaysAPosition. -/
theorem witness_InvStep :
    busy.Inv ∧ step busy = .next { doPoll .aStartWait busy |>.2 with
      result := busy.cfg.codes.bt.startTimeout, resultValid := true, ph := .idle
      trace := [.finished (some 1), .poll false] } :=
  ⟨⟨by decide, by decide, by decide, by decide, by decide, by decide⟩, by rfl⟩

theorem witness_SeqTerminates : busy.Inv := witness_InvStep.1

theorem witness_AlwaysAPosition : busy.Inv := witness_InvStep.1

end Sys2Proof.Tests
end

-- ==== O43: a command run access by access ====
section
/-! PROOFS. A command run access by access (`seqStep`, R15, R45) ends as the command run in one step (`exec`), obligation
O43. Each micro-sequence of Machine/MicroSequences.lean gets one commuting lemma: from its first phase, SEQ's single steps
come to what the calling command does with its result (`afterAddress`, `afterTxByte`, `afterStop`). A command is the chain
of its micro-sequences' lemmas. -/

namespace Sys2Proof.Machine

/-! ## Coming from one outcome to another by single accesses -/

theorem thenDo_assoc (x : Host.Outcome State Fault Refusal) (f g : State → Host.Outcome State Fault Refusal) :
    thenDo (thenDo x f) g = thenDo x fun s => thenDo (f s) g := by
  cases x <;> rfl

theorem seqRun_of_idle (n : Nat) (s : State) (h : s.ph = .idle) : seqRun n s = .next s := by
  cases n with
  | zero => rfl
  | succ n => simp [seqRun, h]

theorem seqRun_succ_of_busy (n : Nat) (s : State) (h : s.ph ≠ .idle) :
    seqRun (n + 1) s = thenDo (seqStep s) (seqRun n) := by
  simp [seqRun, h]

/-- A run of SEQ may be cut anywhere. -/
theorem seqRun_add (m n : Nat) (s : State) : seqRun (m + n) s = thenDo (seqRun m s) (seqRun n) := by
  induction m generalizing s with
  | zero => simp [seqRun]
  | succ m ih =>
    rw [Nat.add_right_comm]
    by_cases h : s.ph = .idle
    · simp [seqRun_of_idle _ s h]
    · rw [seqRun_succ_of_busy _ s h, seqRun_succ_of_busy _ s h, thenDo_assoc]
      exact congrArg _ (funext ih)

/-- Some number of single accesses lead from the outcome `x` to the outcome `o`. -/
def ComesTo (x o : Host.Outcome State Fault Refusal) : Prop := ∃ n, thenDo x (seqRun n) = o

theorem comesTo_next_iff (s : State) (o : Host.Outcome State Fault Refusal) :
    ComesTo (.next s) o ↔ ∃ n, seqRun n s = o := Iff.rfl

theorem ComesTo.refl (x : Host.Outcome State Fault Refusal) : ComesTo x x := ⟨0, by cases x <;> rfl⟩

theorem ComesTo.trans {x y z : Host.Outcome State Fault Refusal} (h : ComesTo x y) (k : ComesTo y z) : ComesTo x z := by
  obtain ⟨m, rfl⟩ := h
  obtain ⟨n, rfl⟩ := k
  refine ⟨m + n, ?_⟩
  rw [thenDo_assoc]
  exact congrArg _ (funext (seqRun_add m n))

/-- One access of a busy block. -/
theorem ComesTo.step {s : State} {o : Host.Outcome State Fault Refusal} (hs : s.ph ≠ .idle) (h : seqStep s = o) :
    ComesTo (.next s) o :=
  ⟨1, by rw [thenDo_next, seqRun_succ_of_busy _ s hs, h]; cases o <;> rfl⟩

/-! ## Phases -/

/-- The same state with PH naming `p`. -/
def State.goTo (p : Phase) (s : State) : State := { s with ph := p }

theorem State.goTo_eq (p : Phase) (s : State) : s.goTo p = { s with ph := p } := rfl

@[simp] theorem State.goTo_ph (p : Phase) (s : State) : (s.goTo p).ph = p := rfl

/-- The same state with SEG naming `g`. -/
def State.inSeg (g : Seg) (s : State) : State := { s with seg := g }

@[simp] theorem State.inSeg_cfg (g : Seg) (s : State) : (s.inSeg g).cfg = s.cfg := rfl

/-! An access comes to its own phase first, so the phase that PH named before does not matter to it. -/

@[simp] theorem doPoll_goTo (p q : Phase) (s : State) : doPoll p (s.goTo q) = doPoll p s := rfl
@[simp] theorem doWriteData_goTo (p q : Phase) (v : Byte) (s : State) :
    doWriteData p v (s.goTo q) = doWriteData p v s := rfl

@[simp] theorem doPoll_ph (p : Phase) (s : State) : (doPoll p s).2.ph = p := by simp [doPoll_eq]
@[simp] theorem doPoll_poll (p : Phase) (s : State) : (doPoll p s).2.poll = s.poll - 1 := by simp [doPoll_eq]

theorem waitLoop_ph (p : Phase) (n : Nat) (s : State) (h : s.ph = p) : (waitLoop p n s).2.ph = p := by
  induction n generalizing s with
  | zero => exact h
  | succ n ih =>
    simp only [waitLoop]
    split
    · exact doPoll_ph p s
    · exact ih _ (doPoll_ph p s)

/-- Where POLL is not 0, WAIT polls at least once and so comes to its own phase. -/
theorem wait_goTo (p q : Phase) (s : State) (h : s.poll ≠ 0) : wait p (s.goTo q) = wait p s := by
  obtain ⟨n, hn⟩ : ∃ n, s.poll.toNat = n + 1 :=
    Nat.exists_eq_succ_of_ne_zero fun h0 => h (BitVec.eq_of_toNat_eq h0)
  have hq : (s.goTo q).poll.toNat = n + 1 := hn
  rw [wait, wait, hq, hn, waitLoop, waitLoop, doPoll_goTo]

/-! ## WAIT (R160) -/

/-- The wait phases of the table of R45. -/
inductive IsWait : Phase → Prop where
  | aStartWait : IsWait .aStartWait
  | aAddrWait : IsWait .aAddrWait
  | tWait : IsWait .tWait
  | rWait : IsWait .rWait
  | sWait : IsWait .sWait

theorem IsWait.ne_idle {p : Phase} (h : IsWait p) : p ≠ .idle := by cases h <;> decide

theorem seqStep_of_isWait {p : Phase} (h : IsWait p) (s : State) (hp : s.ph = p) : seqStep s = pollStep p s := by
  cases h <;> simp [seqStep, hp]

/-- Where SEQ goes after a WAIT that ended as `r` says. -/
def afterWait (r : WaitEnd × State) : Host.Outcome State Fault Refusal :=
  match r.1 with
  | .ok => afterWaitOk r.2
  | .timeout => afterWaitTimeout r.2

theorem afterWait_ok {r : WaitEnd × State} (h : r.1 = .ok) : afterWait r = afterWaitOk r.2 := by simp [afterWait, h]

theorem afterWait_timeout {r : WaitEnd × State} (h : r.1 = .timeout) : afterWait r = afterWaitTimeout r.2 := by
  simp [afterWait, h]

/-- A poll that does not see FLAG and leaves POLL above 0 is followed by another (R160). -/
theorem pollStep_again (p : Phase) (s : State) (h0 : s.poll ≠ 0) (hf : (doPoll p s).1 = false)
    (hz : (doPoll p s).2.poll ≠ 0) : pollStep p s = .next (doPoll p s).2 := by
  simp only [pollStep, if_neg h0, hf, Bool.false_eq_true, if_false, if_neg hz]

/-- The polls of WAIT, one a step, end as WAIT does. -/
theorem wait_comesTo {p : Phase} (hw : IsWait p) (s : State) (hp : s.ph = p) :
    ComesTo (.next s) (afterWait (wait p s)) := by
  obtain ⟨n, hn⟩ : ∃ n, s.poll.toNat = n := ⟨_, rfl⟩
  have hbusy (u : State) (hu : u.ph = p) : u.ph ≠ .idle := hu ▸ hw.ne_idle
  unfold wait
  induction n generalizing s with
  | zero =>
    have h0 : s.poll = 0 := BitVec.eq_of_toNat_eq hn
    rw [hn]
    exact ComesTo.step (hbusy s hp) (by simp [seqStep_of_isWait hw s hp, pollStep, h0, waitLoop, afterWait])
  | succ n ih =>
    have h0 : s.poll ≠ 0 := by rintro h; simp [h] at hn
    have hpoll : (doPoll p s).2.poll.toNat = n := by rw [doPoll_poll]; bv_omega
    have hstep := ComesTo.step (hbusy s hp) (seqStep_of_isWait hw s hp)
    rw [hn, waitLoop]
    cases hf : (doPoll p s).1 with
    | true =>
      simp only [pollStep, if_neg h0, hf, if_true] at hstep
      simpa [hf, afterWait] using hstep
    | false =>
      by_cases hz : (doPoll p s).2.poll = 0
      · obtain rfl : n = 0 := by rw [← hpoll, hz]; rfl
        simp only [pollStep, if_neg h0, hf, hz, if_true, Bool.false_eq_true, if_false] at hstep
        simpa [hf, waitLoop, afterWait] using hstep
      · rw [pollStep_again p s h0 hf hz] at hstep
        have hrest := ih _ (doPoll_ph p s) hpoll
        rw [hpoll] at hrest
        simpa [hf] using hstep.trans hrest

section
variable {q p : Phase} {w : Byte} {s : State}

theorem doTrigger_poll_ne_zero (hl : s.cfg.pollLimit ≠ 0) : (doTrigger q w s).poll ≠ 0 := by
  obtain ⟨-, -, hpoll, -⟩ := doTrigger_spec q w s
  rwa [hpoll]

theorem triggerWait_busOnly (p q : Phase) (w : Byte) (s : State) : BusOnly s (wait p (doTrigger q w s)).2 :=
  (doTrigger_spec q w s).1.trans (wait_busOnly p _)

theorem triggerWait_ph (hl : s.cfg.pollLimit ≠ 0) : (wait p (doTrigger q w s)).2.ph = p := by
  rw [← wait_goTo p p _ (doTrigger_poll_ne_zero hl)]
  exact waitLoop_ph p _ _ rfl

/-- A trigger and the WAIT after it (R161). -/
theorem triggerWait_comesTo (hw : IsWait p) (hq : q ≠ .idle) (hl : s.cfg.pollLimit ≠ 0)
    (hstep : seqStep (s.goTo q) = .next ((doTrigger q w s).goTo p)) :
    ComesTo (.next (s.goTo q)) (afterWait (wait p (doTrigger q w s))) := by
  rw [← wait_goTo p p _ (doTrigger_poll_ne_zero hl)]
  exact (ComesTo.step hq hstep).trans (wait_comesTo hw _ rfl)

end

/-! ## STOPSEQ (R180) -/

theorem afterWait_sWait {r : WaitEnd × State} (h : r.2.ph = .sWait) : afterWait r = afterStop r.1 r.2 := by
  cases he : r.1 with
  | ok => simp [afterWait_ok he, afterWaitOk, h]
  | timeout => simp [afterWait_timeout he, afterWaitTimeout, h]

theorem stopSeq_comesTo (s : State) (hl : s.cfg.pollLimit ≠ 0) :
    ComesTo (.next (s.goTo .sTrig)) (afterStop (stopSeq s).1 (stopSeq s).2) := by
  have hwait : ComesTo _ (afterWait (stopSeq s)) := triggerWait_comesTo .sWait (by decide) hl rfl
  have hph : (stopSeq s).2.ph = .sWait := triggerWait_ph hl
  rwa [afterWait_sWait hph] at hwait

/-! ## TXBYTE (R170) -/

section
variable (v : Byte) (c : TxCodes) (s : State)

theorem BusOnly.txCodes {s t : State} (h : BusOnly s t) :
    txCodesOf t.cfg.codes t.seg = txCodesOf s.cfg.codes s.seg := by rw [h.cfg, h.seg]

/-- The WAIT of TXBYTE, with the accesses before it. -/
def txWait : WaitEnd × State :=
  wait .tWait (doTrigger .tTrig (doWriteData .tData v s).cfg.cw.xfer (doWriteData .tData v s))

theorem txWait_busOnly : BusOnly s (txWait v s).2 :=
  (doWriteData_busOnly .tData v s).trans (triggerWait_busOnly ..)

/-- TXBYTE's result where ST holds the status of the transfer. -/
def txVerdict (u : State) : Byte := if u.st ≠ u.cfg.status.txdAck then c.status else 0

theorem txByte_timeout (h : (txWait v s).1 = .timeout) : txByte v c s = (c.timeout, (txWait v s).2) := by
  unfold txWait at h ⊢
  simp [txByte, h]

theorem txByte_ok (h : (txWait v s).1 = .ok) :
    txByte v c s = (txVerdict c (doStatus .tStat (txWait v s).2), doStatus .tStat (txWait v s).2) := by
  unfold txWait at h ⊢
  simp only [txByte, h, txVerdict]
  split <;> rfl

theorem txStatStep_eq (u : State) (hc : txCodesOf u.cfg.codes u.seg = some c) :
    txStatStep u = afterTxByte (txVerdict c (doStatus .tStat u)) (doStatus .tStat u) := by
  rw [← (doStatus_busOnly .tStat u).txCodes] at hc
  simp only [txStatStep, hc, txVerdict]
  split <;> rfl

theorem txWait_comesTo (hv : txByteOf s = some v) (hl : s.cfg.pollLimit ≠ 0) :
    ComesTo (.next (s.goTo .tData)) (afterWait (txWait v s)) ∧ (txWait v s).2.ph = .tWait := by
  have hv' : txByteOf (s.goTo .tData) = some v := hv
  have hdata : seqStep (s.goTo .tData) = .next ((doWriteData .tData v s).goTo .tTrig) := by
    simp only [seqStep, State.goTo_ph, txDataStep, hv', doWriteData_goTo, ← State.goTo_eq]
  have hlim : (doWriteData .tData v s).cfg.pollLimit ≠ 0 := by rwa [(doWriteData_busOnly .tData v s).cfg]
  exact ⟨(ComesTo.step (by simp) hdata).trans (triggerWait_comesTo .tWait (by decide) hlim rfl), triggerWait_ph hlim⟩

theorem txByte_comesTo (hv : txByteOf s = some v) (hc : txCodesOf s.cfg.codes s.seg = some c)
    (hl : s.cfg.pollLimit ≠ 0) :
    ComesTo (.next (s.goTo .tData)) (afterTxByte (txByte v c s).1 (txByte v c s).2) := by
  obtain ⟨hwait, hph⟩ := txWait_comesTo v s hv hl
  rw [← (txWait_busOnly v s).txCodes] at hc
  cases he : (txWait v s).1 with
  | timeout =>
    rw [txByte_timeout v c s he]
    simpa only [afterWait_timeout he, afterWaitTimeout, hph, hc] using hwait
  | ok =>
    rw [txByte_ok v c s he]
    simp only [afterWait_ok he, afterWaitOk, hph] at hwait
    exact hwait.trans (ComesTo.step (by simp) (txStatStep_eq c ((txWait v s).2.goTo .tStat) hc))

end

/-! ## One attempt of ADDRESS (R165) -/

section
variable (dev : BitVec 7) (dir : Dir) (c : AddrCodes) (s : State)

theorem BusOnly.addrCodes {s t : State} (h : BusOnly s t) :
    addrCodesOf t.cfg.codes t.seg = addrCodesOf s.cfg.codes s.seg := by rw [h.cfg, h.seg]

/-- The WAIT for the start condition, with its trigger. -/
def startWait : WaitEnd × State := wait .aStartWait (doTrigger .aStart s.cfg.cw.start s)

/-- The state after the start's status read. -/
def startStat : State := doStatus .aStartStat (startWait s).2

/-- The WAIT for the address byte, with the accesses before it from the status read on. -/
def addrWait : WaitEnd × State :=
  wait .aAddrWait (doTrigger .aAddrTrig (doWriteData .aAddrData (addrByte dev dir) s).cfg.cw.xfer
    (doWriteData .aAddrData (addrByte dev dir) s))

theorem startWait_busOnly : BusOnly s (startWait s).2 := triggerWait_busOnly ..

theorem startStat_busOnly : BusOnly s (startStat s) := (startWait_busOnly s).trans (doStatus_busOnly ..)

theorem addrWait_busOnly : BusOnly s (addrWait dev dir s).2 :=
  (doWriteData_busOnly ..).trans (triggerWait_busOnly ..)

theorem addressAttempt_startTimeout (h : (startWait s).1 = .timeout) :
    addressAttempt dev dir c s = (some c.startTimeout, (startWait s).2) := by
  unfold startWait at h ⊢
  simp [addressAttempt, h]

theorem addressAttempt_startStatus (h : (startWait s).1 = .ok)
    (hs : isStartStatus (startStat s).cfg.status (startStat s).st = false) :
    addressAttempt dev dir c s = (some c.startStatus, startStat s) := by
  unfold startStat startWait at *
  simp [addressAttempt, h, hs]

theorem addressAttempt_addrTimeout (h : (startWait s).1 = .ok)
    (hs : isStartStatus (startStat s).cfg.status (startStat s).st = true)
    (ha : (addrWait dev dir (startStat s)).1 = .timeout) :
    addressAttempt dev dir c s = (some c.addrTimeout, (addrWait dev dir (startStat s)).2) := by
  unfold addrWait startStat startWait at *
  simp [addressAttempt, h, hs, ha]

theorem addressAttempt_addrOk (h : (startWait s).1 = .ok)
    (hs : isStartStatus (startStat s).cfg.status (startStat s).st = true)
    (ha : (addrWait dev dir (startStat s)).1 = .ok) :
    addressAttempt dev dir c s = (none, doStatus .aAddrStat (addrWait dev dir (startStat s)).2) := by
  unfold addrWait startStat startWait at *
  simp [addressAttempt, h, hs, ha]

/-- The next attempt after a not-acknowledge (R166). -/
def State.nextAttempt (u : State) : State := { u with retry := u.retry - 1 }

theorem State.nextAttempt_retry (u : State) : u.nextAttempt.retry = u.retry - 1 := rfl

/-- What SEQ does once ST holds the status after the address byte (R165, R297). -/
def addrVerdict (u : State) : Host.Outcome State Fault Refusal :=
  if u.st = nackOf u.cfg.status dir ∧ u.retry ≠ 0 then .next (u.nextAttempt.goTo .aStart)
  else if u.st ≠ ackOf u.cfg.status dir then afterAddress c.addrStatus u
  else afterAddress 0 u

/-- Where SEQ goes after one attempt of ADDRESS. -/
def afterAttempt (r : Option Byte × State) : Host.Outcome State Fault Refusal :=
  match r.1 with
  | some code => afterAddress code r.2
  | none => addrVerdict dir c r.2

theorem afterAttempt_some {r : Option Byte × State} {code : Byte} (h : r.1 = some code) :
    afterAttempt dir c r = afterAddress code r.2 := by simp [afterAttempt, h]

theorem afterAttempt_none {r : Option Byte × State} (h : r.1 = none) :
    afterAttempt dir c r = addrVerdict dir c r.2 := by simp [afterAttempt, h]

theorem startStatStep_eq (u : State) (hc : addrCodesOf u.cfg.codes u.seg = some c) :
    startStatStep u =
      if isStartStatus (doStatus .aStartStat u).cfg.status (doStatus .aStartStat u).st then
        .next ((doStatus .aStartStat u).goTo .aAddrData)
      else afterAddress c.startStatus (doStatus .aStartStat u) := by
  rw [← (doStatus_busOnly .aStartStat u).addrCodes] at hc
  simp only [startStatStep, hc, Bool.not_eq_true', ← Bool.not_eq_true, ite_not, State.goTo_eq]

theorem addrStatStep_eq (u : State) (hdir : u.dir = dir) (hc : addrCodesOf u.cfg.codes u.seg = some c) :
    addrStatStep u = addrVerdict dir c (doStatus .aAddrStat u) := by
  have hb := doStatus_busOnly .aAddrStat u
  rw [← hb.addrCodes] at hc
  simp only [addrStatStep, hc, addrVerdict, hb.dir, hdir, State.goTo, State.nextAttempt]

theorem startWait_comesTo (hl : s.cfg.pollLimit ≠ 0) :
    ComesTo (.next (s.goTo .aStart)) (afterWait (startWait s)) ∧ (startWait s).2.ph = .aStartWait :=
  ⟨triggerWait_comesTo .aStartWait (by decide) hl rfl, triggerWait_ph hl⟩

/-- The first half of an attempt whose start completes: up to the check of the start's status. -/
theorem startStat_comesTo (hc : addrCodesOf s.cfg.codes s.seg = some c) (hl : s.cfg.pollLimit ≠ 0)
    (h : (startWait s).1 = .ok) :
    ComesTo (.next (s.goTo .aStart))
      (if isStartStatus (startStat s).cfg.status (startStat s).st then .next ((startStat s).goTo .aAddrData)
        else afterAddress c.startStatus (startStat s)) := by
  obtain ⟨hwait, hph⟩ := startWait_comesTo s hl
  simp only [afterWait_ok h, afterWaitOk, hph] at hwait
  rw [← (startWait_busOnly s).addrCodes] at hc
  exact hwait.trans (ComesTo.step (by simp) (startStatStep_eq c ((startWait s).2.goTo .aStartStat) hc))

/-- The second half of an attempt: the address byte, its trigger and its WAIT. -/
theorem addrWait_comesTo (hdev : s.dev = dev) (hdir : s.dir = dir) (hl : s.cfg.pollLimit ≠ 0) :
    ComesTo (.next (s.goTo .aAddrData)) (afterWait (addrWait dev dir s)) ∧ (addrWait dev dir s).2.ph = .aAddrWait := by
  subst hdev hdir
  have hlim : (doWriteData .aAddrData (addrByte s.dev s.dir) s).cfg.pollLimit ≠ 0 := by
    rwa [(doWriteData_busOnly .aAddrData (addrByte s.dev s.dir) s).cfg]
  have hdata : ComesTo (.next (s.goTo .aAddrData))
      (.next ((doWriteData .aAddrData (addrByte s.dev s.dir) s).goTo .aAddrTrig)) := ComesTo.step (by simp) rfl
  exact ⟨hdata.trans (triggerWait_comesTo .aAddrWait (by decide) hlim rfl), triggerWait_ph hlim⟩

theorem addressAttempt_comesTo (hdev : s.dev = dev) (hdir : s.dir = dir)
    (hc : addrCodesOf s.cfg.codes s.seg = some c) (hl : s.cfg.pollLimit ≠ 0) :
    ComesTo (.next (s.goTo .aStart)) (afterAttempt dir c (addressAttempt dev dir c s)) := by
  have hb := startStat_busOnly s
  cases he : (startWait s).1 with
  | timeout =>
    obtain ⟨hwait, hph⟩ := startWait_comesTo s hl
    rw [← (startWait_busOnly s).addrCodes] at hc
    rw [addressAttempt_startTimeout _ _ c s he, afterAttempt_some dir c rfl]
    simpa only [afterWait_timeout he, afterWaitTimeout, hph, hc] using hwait
  | ok =>
    have hstat := startStat_comesTo c s hc hl he
    cases hs : isStartStatus (startStat s).cfg.status (startStat s).st with
    | false =>
      rw [addressAttempt_startStatus _ _ c s he hs, afterAttempt_some dir c rfl]
      simpa only [hs, Bool.false_eq_true, if_false] using hstat
    | true =>
      rw [hs, if_pos rfl] at hstat
      obtain ⟨haddr, hph⟩ :=
        addrWait_comesTo dev dir (startStat s) (hb.dev.trans hdev) (hb.dir.trans hdir) (by rwa [hb.cfg])
      have hb2 := hb.trans (addrWait_busOnly dev dir _)
      rw [← hb2.addrCodes] at hc
      cases ha : (addrWait dev dir (startStat s)).1 with
      | timeout =>
        rw [addressAttempt_addrTimeout _ _ c s he hs ha, afterAttempt_some dir c rfl]
        simp only [afterWait_timeout ha, afterWaitTimeout, hph, hc] at haddr
        exact hstat.trans haddr
      | ok =>
        rw [addressAttempt_addrOk _ _ c s he hs ha, afterAttempt_none dir c rfl]
        simp only [afterWait_ok ha, afterWaitOk, hph] at haddr
        exact (hstat.trans haddr).trans (ComesTo.step (by simp)
          (addrStatStep_eq dir c ((addrWait dev dir (startStat s)).2.goTo .aAddrStat) (hb2.dir.trans hdir) hc))

/-! ## The retry loop of ADDRESS (R165, R166) -/

theorem addressLoop_failed (n : Nat) {code : Byte} (h : (addressAttempt dev dir c s).1 = some code) :
    addressLoop dev dir c n s = (code, (addressAttempt dev dir c s).2) := by
  unfold addressLoop
  simp only [h]

theorem addressLoop_retry (n : Nat) (h : (addressAttempt dev dir c s).1 = none)
    (hn : (addressAttempt dev dir c s).2.st = nackOf (addressAttempt dev dir c s).2.cfg.status dir) :
    addressLoop dev dir c (n + 1) s =
      addressLoop dev dir c n (addressAttempt dev dir c s).2.nextAttempt := by
  rw [addressLoop]
  simp only [h, if_pos hn, State.nextAttempt]

theorem addressLoop_verdict (n : Nat) (h : (addressAttempt dev dir c s).1 = none)
    (hn : ¬((addressAttempt dev dir c s).2.st = nackOf (addressAttempt dev dir c s).2.cfg.status dir ∧ n ≠ 0)) :
    addressLoop dev dir c n s =
      (if (addressAttempt dev dir c s).2.st ≠ ackOf (addressAttempt dev dir c s).2.cfg.status dir then c.addrStatus else 0,
        (addressAttempt dev dir c s).2) := by
  unfold addressLoop
  simp only [h]
  cases n with
  | zero => simp only; split <;> rfl
  | succ n =>
    simp only [ne_eq, Nat.add_eq_zero_iff, one_ne_zero, and_false, not_false_eq_true, and_true] at hn
    simp only [if_neg hn]
    split <;> rfl

theorem addressLoop_comesTo (n : Nat) (hr : s.retry.toNat = n) (hdev : s.dev = dev) (hdir : s.dir = dir)
    (hc : addrCodesOf s.cfg.codes s.seg = some c) (hl : s.cfg.pollLimit ≠ 0) :
    ComesTo (.next (s.goTo .aStart))
      (afterAddress (addressLoop dev dir c n s).1 (addressLoop dev dir c n s).2) := by
  induction n using Nat.strong_induction_on generalizing s with | _ n ih
  have hattempt := addressAttempt_comesTo dev dir c s hdev hdir hc hl
  have hb := addressAttempt_busOnly dev dir c s
  cases h : (addressAttempt dev dir c s).1 with
  | some code =>
    rw [addressLoop_failed _ _ c s n h]
    rwa [afterAttempt_some dir c h] at hattempt
  | none =>
    have hleft : (addressAttempt dev dir c s).2.retry ≠ 0 ↔ n ≠ 0 := by
      rw [hb.retry, ← hr, ne_eq, ← BitVec.toNat_inj]; rfl
    simp only [afterAttempt_none dir c h, addrVerdict, hleft] at hattempt
    by_cases hn : (addressAttempt dev dir c s).2.st = nackOf (addressAttempt dev dir c s).2.cfg.status dir ∧ n ≠ 0
    · rw [if_pos hn] at hattempt
      obtain ⟨hnack, hpos⟩ := hn
      obtain ⟨m, rfl⟩ := Nat.exists_eq_succ_of_ne_zero hpos
      have hretry : (addressAttempt dev dir c s).2.nextAttempt.retry.toNat = m := by
        rw [State.nextAttempt_retry, hb.retry]; bv_omega
      rw [← hb.addrCodes] at hc
      rw [← hb.cfg] at hl
      rw [addressLoop_retry _ _ c s m h hnack]
      exact hattempt.trans
        (ih m (Nat.lt_succ_self m) _ hretry (hb.dev.trans hdev) (hb.dir.trans hdir) hc hl)
    · rw [if_neg hn] at hattempt
      rw [addressLoop_verdict _ _ c s n h hn]
      by_cases hack : (addressAttempt dev dir c s).2.st ≠ ackOf (addressAttempt dev dir c s).2.cfg.status dir
      · rwa [if_pos hack] at hattempt ⊢
      · rwa [if_neg hack] at hattempt ⊢

/-- ADDRESS, called from the segment `g` (R165). -/
theorem address_comesTo (g : Seg) (hc : addrCodesOf s.cfg.codes g = some c) (hl : s.cfg.pollLimit ≠ 0) :
    ComesTo (.next (toAddress g dir s))
      (afterAddress (address s.dev dir c (s.inSeg g)).1 (address s.dev dir c (s.inSeg g)).2) :=
  addressLoop_comesTo s.dev dir c { s with seg := g, dir := dir, retry := s.cfg.addrRetries } _ rfl rfl rfl hc hl

theorem address_seg : (address dev dir c s).2.seg = s.seg := (address_busOnly dev dir c s).seg

theorem address_cfg : (address dev dir c s).2.cfg = s.cfg := (address_busOnly dev dir c s).cfg

end

/-! ## What the commands do with the results -/

section
variable {s : State} (r : Byte)

/-- The start of a data loop (R220, R230). -/
def State.startLoop (g : Seg) (s : State) : State := { s with idx := 0, seg := g }

theorem afterAddress_bt (h : s.seg = .bt) : afterAddress r s = .next (finish r s) := by simp [afterAddress, h]

theorem afterAddress_wbAddr (h : s.seg = .wbAddr) :
    afterAddress r s = .next (if r ≠ 0 then finish r s else (s.inSeg .wbReg).goTo .tData) := by
  simp [afterAddress, h, State.goTo, State.inSeg]

theorem afterAddress_rbA (h : s.seg = .rbA) :
    afterAddress r s = .next (if r ≠ 0 then toFin { s with err := r } else (s.inSeg .rbReg).goTo .tData) := by
  simp [afterAddress, h, State.goTo, State.inSeg]

theorem afterAddress_rbB (h : s.seg = .rbB) :
    afterAddress r s =
      .next (if r ≠ 0 then toFin { s with err := r } else toReceive (s.startLoop .rbData)) := by
  simp [afterAddress, h, State.startLoop]

theorem afterTxByte_sb (h : s.seg = .sb) : afterTxByte r s = .next (finish r s) := by simp [afterTxByte, h]

theorem afterTxByte_wbReg (h : s.seg = .wbReg) :
    afterTxByte r s = .next (if r ≠ 0 then finish r s else toData (s.startLoop .wbData)) := by
  simp [afterTxByte, h, State.startLoop]

theorem afterTxByte_wbData (h : s.seg = .wbData) :
    afterTxByte r s = .next (if r ≠ 0 then finish r s else toData { s with idx := s.idx + 1 }) := by
  simp [afterTxByte, h]

theorem afterTxByte_rbReg (h : s.seg = .rbReg) :
    afterTxByte r s = .next (if r ≠ 0 then toFin { s with err := r } else toAddress .rbB .read s) := by
  simp [afterTxByte, h]

theorem afterStop_st (e : WaitEnd) (h : s.seg = .st) :
    afterStop e s = .next (match e with | .timeout => finish s.cfg.codes.stTimeout s | .ok => finish 0 s) := by
  cases e <;> simp [afterStop, h]

theorem afterStop_rbStop (e : WaitEnd) (h : s.seg = .rbStop) : afterStop e s = .next (finish s.err s) := by
  simp [afterStop, h]

end

/-! ## CONFIGURE, RESET, STOP, BEGIN and SEND -/

section
variable (s : State)

theorem runConfigure_comesTo (khz : BitVec 16) (pu : Bool) :
    ComesTo (.next (startCommand (.configure khz pu) s)) (.next (runConfigure s)) := by
  have hdiv : ComesTo (.next (startCommand (.configure khz pu) s))
      (.next ((doConfigDiv { s with seg := .cfg }).goTo .cfgPu)) := ComesTo.step (by simp [startCommand]) rfl
  have hpu : ComesTo (.next ((doConfigDiv { s with seg := .cfg }).goTo .cfgPu))
      (.next ((doConfigPullup (doConfigDiv { s with seg := .cfg })).goTo .cfgEn)) := ComesTo.step (by simp) rfl
  exact (hdiv.trans hpu).trans (ComesTo.step (by simp) rfl)

theorem runReset_comesTo : ComesTo (.next (startCommand .reset s)) (.next (runReset s)) :=
  ComesTo.step (by simp [startCommand]) rfl

theorem runStop_comesTo (hl : s.cfg.pollLimit ≠ 0) : ComesTo (.next (startCommand .stop s)) (.next (runStop s)) := by
  have hstop := stopSeq_comesTo (s.inSeg .st) hl
  rw [afterStop_st _ (stopSeq_busOnly (s.inSeg .st)).seg] at hstop
  exact hstop

theorem runBegin_comesTo (dev : BitVec 7) (hl : s.cfg.pollLimit ≠ 0) :
    ComesTo (.next (startCommand (.beginTrans dev) s)) (.next (runBegin s)) := by
  have haddr := address_comesTo .write s.cfg.codes.bt s .bt rfl hl
  rw [afterAddress_bt _ (address_seg ..)] at haddr
  exact haddr

theorem runSend_comesTo (val : Byte) (hl : s.cfg.pollLimit ≠ 0) :
    ComesTo (.next (startCommand (.send val) s)) (.next (runSend s)) := by
  have hsend := txByte_comesTo s.val s.cfg.codes.sb (s.inSeg .sb) rfl rfl hl
  rw [afterTxByte_sb _ (txByte_busOnly _ _ (s.inSeg .sb)).seg] at hsend
  exact hsend

end

/-! ## WRBLK (R220, R221) -/

theorem doFetch_keeps {s t : State} (h : doFetch s = some t) :
    t.seg = s.seg ∧ t.idx = s.idx ∧ t.len = s.len ∧ t.cfg = s.cfg := by
  have hb := enter_busOnly .tFetch s
  simp only [doFetch] at h
  split at h
  · cases h
    exact ⟨hb.seg, hb.idx, hb.len, hb.cfg⟩
  · cases h

theorem toData_of_lt {s : State} (h : s.idx.toNat < s.len.toNat) : toData s = s.goTo .tFetch := by
  have hne : s.idx ≠ s.len := by rintro he; simp [he] at h
  rw [toData, if_neg hne, State.goTo_eq]

theorem seqStep_tFetch (s : State) :
    seqStep (s.goTo .tFetch) =
      match doFetch s with
      | some t => .next (t.goTo .tData)
      | none => .fault (.bufNoValue s.idx.toNat) := rfl

/-- The data loop of WRBLK: at the label `data`, `n` bytes are left to send. -/
theorem writeLoop_comesTo (n : Nat) (s : State) (hseg : s.seg = .wbData) (hn : s.idx.toNat + n = s.len.toNat)
    (hl : s.cfg.pollLimit ≠ 0) : ComesTo (.next (toData s)) (wrblkOutcome (writeLoop n s)) := by
  induction n generalizing s with
  | zero =>
    rw [toData, if_pos (BitVec.eq_of_toNat_eq hn)]
    exact ComesTo.refl _
  | succ n ih =>
    rw [toData_of_lt (by omega)]
    have hfetch := ComesTo.step (by simp) (seqStep_tFetch s)
    rw [writeLoop]
    cases hf : doFetch s with
    | none => simpa only [hf, wrblkOutcome] using hfetch
    | some t =>
      obtain ⟨tseg, tidx, tlen, tcfg⟩ := doFetch_keeps hf
      rw [hseg] at tseg
      rw [hf] at hfetch
      have hb := txByte_busOnly t.txb t.cfg.codes.wbData t
      have htx := txByte_comesTo t.txb t.cfg.codes.wbData t (by simp [txByteOf, tseg]) (by simp [txCodesOf, tseg])
        (by rwa [tcfg])
      rw [afterTxByte_wbData _ (hb.seg.trans tseg)] at htx
      simp only
      by_cases hr : (txByte t.txb t.cfg.codes.wbData t).1 ≠ 0
      · rw [if_pos hr] at htx ⊢
        exact hfetch.trans htx
      · rw [if_neg hr] at htx ⊢
        rw [← tcfg, ← hb.cfg] at hl
        refine (hfetch.trans htx).trans (ih _ (hb.seg.trans tseg) ?_ hl)
        simp only [hb.idx, hb.len, tidx, tlen]
        bv_omega

section
variable (s : State)

/-- The addressing of WRBLK. -/
def wbAddress : Byte × State := address s.dev .write s.cfg.codes.wb (s.inSeg .wbAddr)

/-- The register number's byte of WRBLK, after the addressing. -/
def wbRegByte : Byte × State :=
  txByte (wbAddress s).2.rega (wbAddress s).2.cfg.codes.wbReg ((wbAddress s).2.inSeg .wbReg)

theorem runWrblk_eq :
    runWrblk s =
      if (wbAddress s).1 ≠ 0 then (.code (wbAddress s).1, (wbAddress s).2)
      else if (wbRegByte s).1 ≠ 0 then (.code (wbRegByte s).1, (wbRegByte s).2)
      else writeLoop (wbRegByte s).2.len.toNat ((wbRegByte s).2.startLoop .wbData) := rfl

theorem wbAddress_seg : (wbAddress s).2.seg = .wbAddr := address_seg ..

theorem wbAddress_cfg : (wbAddress s).2.cfg = s.cfg := address_cfg ..

theorem wbRegByte_seg : (wbRegByte s).2.seg = .wbReg := (txByte_busOnly _ _ ((wbAddress s).2.inSeg .wbReg)).seg

theorem wbRegByte_cfg : (wbRegByte s).2.cfg = s.cfg :=
  (txByte_busOnly _ _ ((wbAddress s).2.inSeg .wbReg)).cfg.trans (wbAddress_cfg s)

theorem runWrblk_comesTo (dev : BitVec 7) (reg len : Byte) (hl : s.cfg.pollLimit ≠ 0) :
    ComesTo (.next (startCommand (.wrblk dev reg len) s)) (wrblkOutcome (runWrblk s)) := by
  have haddr : ComesTo (.next (startCommand (.wrblk dev reg len) s)) (afterAddress (wbAddress s).1 (wbAddress s).2) :=
    address_comesTo .write s.cfg.codes.wb s .wbAddr rfl hl
  have hreg : ComesTo (.next (((wbAddress s).2.inSeg .wbReg).goTo .tData))
      (afterTxByte (wbRegByte s).1 (wbRegByte s).2) :=
    txByte_comesTo _ _ ((wbAddress s).2.inSeg .wbReg) rfl rfl (by rwa [State.inSeg_cfg, wbAddress_cfg])
  have hdata : ComesTo (.next (toData ((wbRegByte s).2.startLoop .wbData)))
      (wrblkOutcome (writeLoop (wbRegByte s).2.len.toNat ((wbRegByte s).2.startLoop .wbData))) :=
    writeLoop_comesTo _ ((wbRegByte s).2.startLoop .wbData) rfl (Nat.zero_add _) (by rwa [← wbRegByte_cfg s] at hl)
  rw [afterAddress_wbAddr _ (wbAddress_seg s)] at haddr
  rw [afterTxByte_wbReg _ (wbRegByte_seg s)] at hreg
  rw [runWrblk_eq]
  by_cases h1 : (wbAddress s).1 ≠ 0
  · rw [if_pos h1] at haddr ⊢
    exact haddr
  rw [if_neg h1] at haddr ⊢
  by_cases h2 : (wbRegByte s).1 ≠ 0
  · rw [if_pos h2] at hreg ⊢
    exact haddr.trans hreg
  rw [if_neg h2] at hreg ⊢
  exact (haddr.trans hreg).trans hdata

end

/-! ## RDBLK (R230 to R233) -/

section
variable (s : State)

/-- The WAIT of a receive request, with its trigger (R231). -/
def receiveWait : WaitEnd × State := wait .rWait (doTrigger .rTrig (rxWord s) s)

theorem receiveWait_busOnly : BusOnly s (receiveWait s).2 := triggerWait_busOnly ..

/-- The state after the status read of a receive request. -/
def receiveStat : State := doStatus .rStat (receiveWait s).2

theorem receiveStat_busOnly : BusOnly s (receiveStat s) := (receiveWait_busOnly s).trans (doStatus_busOnly ..)

theorem readLoop_timeout (n : Nat) (h : (receiveWait s).1 = .timeout) :
    readLoop (n + 1) s = { (receiveWait s).2 with err := (receiveWait s).2.cfg.codes.rbDataTimeout } := by
  unfold receiveWait at h ⊢
  simp [readLoop, h]

theorem readLoop_ok (n : Nat) (h : (receiveWait s).1 = .ok) :
    readLoop (n + 1) s =
      if isRxStatus (receiveStat s).cfg.status (receiveStat s).st then readLoop n (doStore (doReceive (receiveStat s)))
      else { receiveStat s with err := (receiveStat s).st } := by
  unfold receiveStat receiveWait at *
  simp only [readLoop, h, Bool.not_eq_true', ← Bool.not_eq_true, ite_not]

theorem rxStatStep_eq :
    rxStatStep s = .next
      (if isRxStatus (doStatus .rStat s).cfg.status (doStatus .rStat s).st then (doStatus .rStat s).goTo .rData
        else toFin { doStatus .rStat s with err := (doStatus .rStat s).st }) := by
  simp only [rxStatStep, Bool.not_eq_true', ← Bool.not_eq_true, ite_not, State.goTo_eq]

theorem receiveWait_comesTo (hl : s.cfg.pollLimit ≠ 0) :
    ComesTo (.next (s.goTo .rTrig)) (afterWait (receiveWait s)) ∧ (receiveWait s).2.ph = .rWait :=
  ⟨triggerWait_comesTo .rWait (by decide) hl rfl, triggerWait_ph hl⟩

/-- A receive request that completes: up to the check of its status. -/
theorem receiveStat_comesTo (hl : s.cfg.pollLimit ≠ 0) (h : (receiveWait s).1 = .ok) :
    ComesTo (.next (s.goTo .rTrig)) (.next
      (if isRxStatus (receiveStat s).cfg.status (receiveStat s).st then (receiveStat s).goTo .rData
        else toFin { receiveStat s with err := (receiveStat s).st })) := by
  obtain ⟨hwait, hph⟩ := receiveWait_comesTo s hl
  simp only [afterWait_ok h, afterWaitOk, hph] at hwait
  exact hwait.trans (ComesTo.step (by simp) (rxStatStep_eq ((receiveWait s).2.goTo .rStat)))

/-- The read of DATA and the store of the byte (R231). -/
theorem doReceive_doStore_comesTo : ComesTo (.next (s.goTo .rData)) (.next (toReceive (doStore (doReceive s)))) := by
  have hread : ComesTo (.next (s.goTo .rData)) (.next ((doReceive s).goTo .rStore)) := ComesTo.step (by simp) rfl
  exact hread.trans (ComesTo.step (by simp) rfl)

theorem doReceive_doStore_keeps :
    (doStore (doReceive s)).idx = s.idx + 1 ∧ (doStore (doReceive s)).len = s.len ∧
      (doStore (doReceive s)).cfg = s.cfg := by
  have hb := enter_busOnly .rData s
  obtain ⟨-, hidx, -, hcfg, hlen, -⟩ := doStore_spec (doReceive s)
  exact ⟨hidx.trans (congrArg (· + 1) hb.idx), hlen.trans hb.len, hcfg.trans hb.cfg⟩

end

theorem toReceive_of_lt {s : State} (h : s.idx.toNat < s.len.toNat) : toReceive s = s.goTo .rTrig := by
  have hne : s.idx ≠ s.len := by rintro he; simp [he] at h
  rw [toReceive, if_neg hne, State.goTo_eq]

/-- The receive loop of RDBLK: at the label `rx`, `n` bytes are left to receive. -/
theorem readLoop_comesTo (n : Nat) (s : State) (hn : s.idx.toNat + n = s.len.toNat) (hl : s.cfg.pollLimit ≠ 0) :
    ComesTo (.next (toReceive s)) (.next (toFin (readLoop n s))) := by
  induction n generalizing s with
  | zero =>
    rw [toReceive, if_pos (BitVec.eq_of_toNat_eq hn)]
    exact ComesTo.refl _
  | succ n ih =>
    rw [toReceive_of_lt (by omega)]
    cases he : (receiveWait s).1 with
    | timeout =>
      obtain ⟨hwait, hph⟩ := receiveWait_comesTo s hl
      rw [readLoop_timeout s n he]
      simpa only [afterWait_timeout he, afterWaitTimeout, hph] using hwait
    | ok =>
      have hstat := receiveStat_comesTo s hl he
      rw [readLoop_ok s n he]
      split at hstat
      · rename_i hs
        rw [if_pos hs]
        have hb := receiveStat_busOnly s
        obtain ⟨hidx, hlen, hcfg⟩ := doReceive_doStore_keeps (receiveStat s)
        refine (hstat.trans (doReceive_doStore_comesTo _)).trans (ih _ ?_ ?_)
        · rw [hidx, hlen, hb.idx, hb.len]
          bv_omega
        · rwa [hcfg, hb.cfg]
      · rename_i hs
        rwa [if_neg hs]

theorem readLoop_cfg (n : Nat) (s : State) : (readLoop n s).cfg = s.cfg := by
  induction n generalizing s with
  | zero => rfl
  | succ n ih =>
    cases he : (receiveWait s).1 with
    | timeout =>
      rw [readLoop_timeout s n he]
      exact (receiveWait_busOnly s).cfg
    | ok =>
      have hb := receiveStat_busOnly s
      obtain ⟨-, -, hcfg⟩ := doReceive_doStore_keeps (receiveStat s)
      rw [readLoop_ok s n he]
      split
      · exact (ih _).trans (hcfg.trans hb.cfg)
      · exact hb.cfg

section
variable (s : State)

/-- The first addressing of RDBLK. -/
def rbAddress : Byte × State := address s.dev .write s.cfg.codes.rbA { s with err := 0, seg := .rbA }

/-- The register number's byte of RDBLK, after the first addressing. -/
def rbRegByte : Byte × State :=
  txByte (rbAddress s).2.rega (rbAddress s).2.cfg.codes.rbReg ((rbAddress s).2.inSeg .rbReg)

/-- The second addressing of RDBLK, after the register number. -/
def rbReaddress : Byte × State :=
  address (rbRegByte s).2.dev .read (rbRegByte s).2.cfg.codes.rbB ((rbRegByte s).2.inSeg .rbB)

theorem readPhases_eq :
    readPhases s =
      if (rbAddress s).1 ≠ 0 then { (rbAddress s).2 with err := (rbAddress s).1 }
      else if (rbRegByte s).1 ≠ 0 then { (rbRegByte s).2 with err := (rbRegByte s).1 }
      else if (rbReaddress s).1 ≠ 0 then { (rbReaddress s).2 with err := (rbReaddress s).1 }
      else readLoop (rbReaddress s).2.len.toNat ((rbReaddress s).2.startLoop .rbData) := rfl

theorem rbAddress_seg : (rbAddress s).2.seg = .rbA := address_seg ..

theorem rbAddress_cfg : (rbAddress s).2.cfg = s.cfg := address_cfg ..

theorem rbRegByte_seg : (rbRegByte s).2.seg = .rbReg := (txByte_busOnly _ _ ((rbAddress s).2.inSeg .rbReg)).seg

theorem rbRegByte_cfg : (rbRegByte s).2.cfg = s.cfg :=
  (txByte_busOnly _ _ ((rbAddress s).2.inSeg .rbReg)).cfg.trans (rbAddress_cfg s)

theorem rbReaddress_seg : (rbReaddress s).2.seg = .rbB := address_seg ..

theorem rbReaddress_cfg : (rbReaddress s).2.cfg = s.cfg := (address_cfg ..).trans (rbRegByte_cfg s)

/-- RDBLK up to its label `fin`. -/
theorem readPhases_comesTo (dev : BitVec 7) (reg len : Byte) (hl : s.cfg.pollLimit ≠ 0) :
    ComesTo (.next (startCommand (.rdblk dev reg len) s)) (.next (toFin (readPhases s))) := by
  have haddr : ComesTo (.next (startCommand (.rdblk dev reg len) s)) (afterAddress (rbAddress s).1 (rbAddress s).2) :=
    address_comesTo .write s.cfg.codes.rbA { s with err := 0 } .rbA rfl hl
  have hreg : ComesTo (.next (((rbAddress s).2.inSeg .rbReg).goTo .tData))
      (afterTxByte (rbRegByte s).1 (rbRegByte s).2) :=
    txByte_comesTo _ _ ((rbAddress s).2.inSeg .rbReg) rfl rfl (by rwa [State.inSeg_cfg, rbAddress_cfg])
  have hread : ComesTo (.next (toAddress .rbB .read (rbRegByte s).2))
      (afterAddress (rbReaddress s).1 (rbReaddress s).2) :=
    address_comesTo .read _ (rbRegByte s).2 .rbB rfl (by rwa [rbRegByte_cfg])
  have hdata : ComesTo (.next (toReceive ((rbReaddress s).2.startLoop .rbData)))
      (.next (toFin (readLoop (rbReaddress s).2.len.toNat ((rbReaddress s).2.startLoop .rbData)))) :=
    readLoop_comesTo _ ((rbReaddress s).2.startLoop .rbData) (Nat.zero_add _) (by rwa [← rbReaddress_cfg s] at hl)
  rw [afterAddress_rbA _ (rbAddress_seg s)] at haddr
  rw [afterTxByte_rbReg _ (rbRegByte_seg s)] at hreg
  rw [afterAddress_rbB _ (rbReaddress_seg s)] at hread
  rw [readPhases_eq]
  by_cases h1 : (rbAddress s).1 ≠ 0
  · rw [if_pos h1] at haddr ⊢
    exact haddr
  rw [if_neg h1] at haddr ⊢
  by_cases h2 : (rbRegByte s).1 ≠ 0
  · rw [if_pos h2] at hreg ⊢
    exact haddr.trans hreg
  rw [if_neg h2] at hreg ⊢
  by_cases h3 : (rbReaddress s).1 ≠ 0
  · rw [if_pos h3] at hread ⊢
    exact (haddr.trans hreg).trans hread
  rw [if_neg h3] at hread ⊢
  exact ((haddr.trans hreg).trans hread).trans hdata

theorem readPhases_cfg : (readPhases s).cfg = s.cfg := by
  rw [readPhases_eq]
  split
  · exact rbAddress_cfg s
  split
  · exact rbRegByte_cfg s
  split
  · exact rbReaddress_cfg s
  · exact (readLoop_cfg _ _).trans (rbReaddress_cfg s)

theorem runRdblk_comesTo (dev : BitVec 7) (reg len : Byte) (hl : s.cfg.pollLimit ≠ 0) :
    ComesTo (.next (startCommand (.rdblk dev reg len) s)) (.next (runRdblk s)) := by
  have hstop := stopSeq_comesTo ((readPhases s).inSeg .rbStop) (by rwa [State.inSeg_cfg, readPhases_cfg])
  rw [afterStop_rbStop _ (stopSeq_busOnly ((readPhases s).inSeg .rbStop)).seg] at hstop
  exact (readPhases_comesTo s dev reg len hl).trans hstop

end

/-! ## Every command -/

theorem pollLimit_ne_zero {c : Config} (h : c.wf = true) : c.pollLimit ≠ 0 := by
  have hlim : 1#8 ≤ c.pollLimit := by simp_all [Config.wf]
  bv_omega

theorem exec_comesTo (i : Instr) (s : State) (hc : s.cfg.wf = true) (hp : s.ph = .idle) (hi : i.wf = true) :
    ComesTo (.next (startCommand i (accepted i s))) (exec i s) := by
  have hl : (accepted i s).cfg.pollLimit ≠ 0 := by simpa using pollLimit_ne_zero hc
  cases i with
  | configure khz pu =>
    rw [execConfigure_idle khz pu s hp (by simpa [Instr.wf] using hi)]
    exact runConfigure_comesTo _ khz pu
  | beginTrans dev => exact execBegin_idle dev s hp ▸ runBegin_comesTo _ dev hl
  | send val => exact execSend_idle val s hp ▸ runSend_comesTo _ val hl
  | wrblk dev reg len => exact execWrblk_idle dev reg len s hp ▸ runWrblk_comesTo _ dev reg len hl
  | rdblk dev reg len => exact execRdblk_idle dev reg len s hp ▸ runRdblk_comesTo _ dev reg len hl
  | stop => exact execStop_idle s hp ▸ runStop_comesTo _ hl
  | reset => exact execReset_idle s hp ▸ runReset_comesTo _

/-- Settles O43: a command's access steps come to what `exec` answers, whichever that is. -/
theorem accessStepsRefineCommand : Obligations.AccessStepsRefineCommand := by
  intro i s hc hp hi
  have h := (comesTo_next_iff _ _).1 (exec_comesTo i s hc hp hi)
  exact ⟨fun _ ht => ht ▸ h, fun _ hf => hf ▸ h⟩

end Sys2Proof.Machine
end

-- ==== The frames of the commands ====
section
/-! PROOFS. What each command leaves unchanged, obligations O32, O47 and O49: the frames of the two data loops, of WRBLK and
of RDBLK, in the manner of `address_busOnly`, and where WRBLK can fault. `exec` is taken apart once, into acceptance and the
command's micro-sequence. -/

namespace Sys2Proof.Machine

/-! ## A command is acceptance and then its micro-sequence -/

/-- The micro-sequence of the command, from the accepted state on. -/
def runCommand (i : Instr) (s : State) : Host.Outcome State Fault Refusal :=
  match i with
  | .configure _ _ => .next (runConfigure s)
  | .beginTrans _ => .next (runBegin s)
  | .send _ => .next (runSend s)
  | .wrblk _ _ _ => wrblkOutcome (runWrblk s)
  | .rdblk _ _ _ => .next (runRdblk s)
  | .stop => .next (runStop s)
  | .reset => .next (runReset s)

theorem exec_eq (i : Instr) (s : State) : exec i s = thenDo (accept i s) (runCommand i) := by cases i <;> rfl

/-- A command either runs from the accepted state or is refused (R112, R304). -/
theorem exec_cases (i : Instr) (s : State) :
    exec i s = runCommand i (accepted i s) ∨ ∃ r, exec i s = .refused r := by
  rw [exec_eq, accept]
  split
  · exact .inr ⟨_, rfl⟩
  split
  · exact .inr ⟨_, rfl⟩
  · exact .inl rfl

theorem exec_next {i : Instr} {s t : State} (h : exec i s = .next t) : runCommand i (accepted i s) = .next t := by
  rcases exec_cases i s with hrun | ⟨r, hr⟩
  · exact hrun ▸ h
  · rw [hr] at h; cases h

theorem exec_fault {i : Instr} {s : State} {f : Fault} (h : exec i s = .fault f) :
    runCommand i (accepted i s) = .fault f := by
  rcases exec_cases i s with hrun | ⟨r, hr⟩
  · exact hrun ▸ h
  · rw [hr] at h; cases h

theorem wrblkOutcome_next {r : BlockEnd × State} {t : State} (h : wrblkOutcome r = .next t) :
    ∃ c, r.1 = .code c ∧ t = finish c r.2 := by
  unfold wrblkOutcome at h
  split at h
  · cases h; exact ⟨_, ‹_›, rfl⟩
  · cases h

theorem wrblkOutcome_fault {r : BlockEnd × State} {f : Fault} (h : wrblkOutcome r = .fault f) :
    ∃ k, r.1 = .noValue k ∧ f = .bufNoValue k := by
  unfold wrblkOutcome at h
  split at h
  · cases h
  · cases h; exact ⟨_, ‹_›, rfl⟩

/-! ## Frames up to the registers that a block transfer works with -/

/-- `t` with the registers that WRBLK works with, but DIR, taken from `m`. -/
def State.maskWrite (m t : State) : State := { t with idx := m.idx, txb := m.txb, retry := m.retry, seg := m.seg }

/-- `t` with the registers that RDBLK works with, and BUF, taken from `m`. -/
def State.maskRead (m t : State) : State :=
  { t with
    idx := m.idx, rxb := m.rxb, err := m.err, buf := m.buf, retry := m.retry, dir := m.dir, seg := m.seg }

section
variable {s t : State}

theorem BusOnly.maskWrite (h : BusOnly s t) (m : State) : BusOnly (m.maskWrite s) (m.maskWrite t) :=
  { h with idx := rfl, txb := rfl, retry := rfl, seg := rfl }

theorem BusOnly.maskRead (h : BusOnly s t) (m : State) : BusOnly (m.maskRead s) (m.maskRead t) :=
  { h with idx := rfl, rxb := rfl, err := rfl, buf := rfl, retry := rfl, dir := rfl, seg := rfl }

end

section
variable (m s : State) (g : Seg)

@[simp] theorem State.startLoop_idx : (s.startLoop g).idx = 0 := rfl
@[simp] theorem State.startLoop_len : (s.startLoop g).len = s.len := rfl
@[simp] theorem State.startLoop_err : (s.startLoop g).err = s.err := rfl

@[simp] theorem State.maskWrite_inSeg : m.maskWrite (s.inSeg g) = m.maskWrite s := rfl
@[simp] theorem State.maskWrite_startLoop : m.maskWrite (s.startLoop g) = m.maskWrite s := rfl
@[simp] theorem State.maskRead_inSeg : m.maskRead (s.inSeg g) = m.maskRead s := rfl
@[simp] theorem State.maskRead_startLoop : m.maskRead (s.startLoop g) = m.maskRead s := rfl

theorem address_maskWrite (dev : BitVec 7) (dir : Dir) (c : AddrCodes) :
    BusOnly (m.maskWrite { s with dir := dir }) (m.maskWrite (address dev dir c s).2) :=
  { address_busOnly dev dir c s with idx := rfl, txb := rfl, retry := rfl, seg := rfl }

theorem address_maskRead (dev : BitVec 7) (dir : Dir) (c : AddrCodes) :
    BusOnly (m.maskRead s) (m.maskRead (address dev dir c s).2) :=
  { address_busOnly dev dir c s with
    idx := rfl, rxb := rfl, err := rfl, buf := rfl, retry := rfl, dir := rfl, seg := rfl }

end

/-! ## WRBLK (R220, R221) -/

theorem doFetch_busOnly {s t : State} (h : doFetch s = some t) : BusOnly s { t with txb := s.txb } := by
  have hb := enter_busOnly .tFetch s
  simp only [doFetch] at h
  split at h
  · cases h
    exact { hb with txb := rfl }
  · cases h

/-- The byte that the data loop of WRBLK sends, once it is fetched. -/
def sendFetched (s : State) : Byte × State := txByte s.txb s.cfg.codes.wbData s

theorem sendFetched_busOnly (s : State) : BusOnly s (sendFetched s).2 := txByte_busOnly ..

/-- The data loop comes to its next byte (R220). -/
def State.nextByte (s : State) : State := { s with idx := s.idx + 1 }

@[simp] theorem State.maskWrite_nextByte (m s : State) : m.maskWrite s.nextByte = m.maskWrite s := rfl

theorem writeLoop_noFetch (n : Nat) {s : State} (h : doFetch s = none) :
    writeLoop (n + 1) s = (.noValue s.idx.toNat, s) := by simp only [writeLoop, h]

theorem writeLoop_fetch (n : Nat) {s t : State} (h : doFetch s = some t) :
    writeLoop (n + 1) s =
      if (sendFetched t).1 ≠ 0 then (.code (sendFetched t).1, (sendFetched t).2)
      else writeLoop n (sendFetched t).2.nextByte := by
  rw [writeLoop, h]
  rfl

theorem writeLoop_busOnly (m : State) (n : Nat) (s : State) :
    BusOnly (m.maskWrite s) (m.maskWrite (writeLoop n s).2) := by
  induction n generalizing s with
  | zero => exact BusOnly.refl _
  | succ n ih =>
    cases hf : doFetch s with
    | none => rw [writeLoop_noFetch n hf]; exact BusOnly.refl _
    | some t =>
      have hfetch : BusOnly (m.maskWrite s) (m.maskWrite t) := (doFetch_busOnly hf).maskWrite m
      have hsend := hfetch.trans ((sendFetched_busOnly t).maskWrite m)
      rw [writeLoop_fetch n hf]
      split
      · exact hsend
      · exact hsend.trans (by simpa using ih (sendFetched t).2.nextByte)

section
variable (m s : State)

theorem wbAddress_busOnly : BusOnly (m.maskWrite { s with dir := .write }) (m.maskWrite (wbAddress s).2) :=
  address_maskWrite m (s.inSeg .wbAddr) s.dev .write s.cfg.codes.wb

theorem wbRegByte_busOnly : BusOnly (m.maskWrite { s with dir := .write }) (m.maskWrite (wbRegByte s).2) := by
  have hsend := (txByte_busOnly (wbAddress s).2.rega (wbAddress s).2.cfg.codes.wbReg
    ((wbAddress s).2.inSeg .wbReg)).maskWrite m
  rw [State.maskWrite_inSeg] at hsend
  exact (wbAddress_busOnly m s).trans hsend

theorem wbAddress_rega : (wbAddress s).2.rega = s.rega := (wbAddress_busOnly s s).rega

theorem wbRegByte_len : (wbRegByte s).2.len = s.len := (wbRegByte_busOnly s s).len

theorem wbRegByte_buf : (wbRegByte s).2.buf = s.buf := (wbRegByte_busOnly s s).buf

theorem runWrblk_busOnly : BusOnly (m.maskWrite { s with dir := .write }) (m.maskWrite (runWrblk s).2) := by
  rw [runWrblk_eq]
  split
  · exact wbAddress_busOnly m s
  split
  · exact wbRegByte_busOnly m s
  · have hloop := writeLoop_busOnly m (wbRegByte s).2.len.toNat ((wbRegByte s).2.startLoop .wbData)
    rw [State.maskWrite_startLoop] at hloop
    exact (wbRegByte_busOnly m s).trans hloop

end

/-- The data loop stops for want of a value only at a byte below LEN that holds none (R221, R52). -/
theorem writeLoop_noValue (n k : Nat) (s : State) (hn : s.idx.toNat + n = s.len.toNat)
    (h : (writeLoop n s).1 = .noValue k) : k < s.len.toNat ∧ Memory.read s.buf k = none := by
  induction n generalizing s with
  | zero => cases h
  | succ n ih =>
    cases hf : doFetch s with
    | none =>
      rw [writeLoop_noFetch n hf] at h
      cases h
      refine ⟨by omega, ?_⟩
      cases hv : Memory.read s.buf s.idx.toNat with
      | none => rfl
      | some v => rw [doFetch_some s v hv] at hf; cases hf
    | some t =>
      have hidx : (sendFetched t).2.idx = s.idx := (sendFetched_busOnly t).idx.trans (doFetch_busOnly hf).idx
      have hlen : (sendFetched t).2.nextByte.len = s.len := (sendFetched_busOnly t).len.trans (doFetch_busOnly hf).len
      have hbuf : (sendFetched t).2.nextByte.buf = s.buf := (sendFetched_busOnly t).buf.trans (doFetch_busOnly hf).buf
      rw [writeLoop_fetch n hf] at h
      split at h
      · cases h
      · rw [← hlen, ← hbuf]
        refine ih _ ?_ h
        rw [hlen, State.nextByte, hidx]
        bv_omega

theorem runWrblk_noValue (k : Nat) (s : State) (h : (runWrblk s).1 = .noValue k) :
    k < s.len.toNat ∧ Memory.read s.buf k = none := by
  rw [runWrblk_eq] at h
  split at h
  · cases h
  split at h
  · cases h
  · rw [← wbRegByte_len, ← wbRegByte_buf]
    exact writeLoop_noValue _ k ((wbRegByte s).2.startLoop .wbData) (Nat.zero_add _) h

/-- Settles O32: only WRBLK's data loop can fault. -/
theorem execFaults : Obligations.ExecFaults := by
  intro i s f h
  have hrun := exec_fault h
  cases i with
  | wrblk dev reg len =>
    obtain ⟨k, hk, rfl⟩ := wrblkOutcome_fault hrun
    obtain ⟨hlt, hread⟩ := runWrblk_noValue k _ hk
    exact ⟨dev, reg, len, k, rfl, rfl, hlt, by simpa using hread⟩
  | _ => cases hrun

/-! ## RDBLK (R230 to R233) -/

theorem doReceive_busOnly (m s : State) : BusOnly (m.maskRead s) (m.maskRead (doReceive s)) := by
  have hb := (enter_busOnly .rData s).maskRead m
  unfold doReceive
  generalize enter .rData s = u at hb ⊢
  exact { hb with }

theorem doStore_busOnly (m s : State) : BusOnly (m.maskRead s) (m.maskRead (doStore s)) := by
  have hb := (enter_busOnly .rStore s).maskRead m
  unfold doStore
  generalize enter .rStore s = u at hb ⊢
  exact { hb with }

theorem readLoop_busOnly (m : State) (n : Nat) (s : State) : BusOnly (m.maskRead s) (m.maskRead (readLoop n s)) := by
  induction n generalizing s with
  | zero => exact BusOnly.refl _
  | succ n ih =>
    cases he : (receiveWait s).1 with
    | timeout =>
      rw [readLoop_timeout s n he]
      exact (receiveWait_busOnly s).maskRead m
    | ok =>
      have hstat := (receiveStat_busOnly s).maskRead m
      rw [readLoop_ok s n he]
      split
      · exact ((hstat.trans (doReceive_busOnly m _)).trans (doStore_busOnly m _)).trans (ih _)
      · exact hstat

section
variable (m s : State)

/-- The start of RDBLK (R230). -/
def State.readStart : State := { s with err := 0, seg := .rbA }

theorem rbAddress_eq : rbAddress s = address s.dev .write s.cfg.codes.rbA s.readStart := rfl

theorem rbAddress_busOnly : BusOnly (m.maskRead s) (m.maskRead (rbAddress s).2) :=
  address_maskRead m s.readStart s.dev .write s.cfg.codes.rbA

theorem rbRegByte_busOnly : BusOnly (m.maskRead s) (m.maskRead (rbRegByte s).2) := by
  have hsend := (txByte_busOnly (rbAddress s).2.rega (rbAddress s).2.cfg.codes.rbReg
    ((rbAddress s).2.inSeg .rbReg)).maskRead m
  rw [State.maskRead_inSeg] at hsend
  exact (rbAddress_busOnly m s).trans hsend

theorem rbReaddress_busOnly : BusOnly (m.maskRead s) (m.maskRead (rbReaddress s).2) := by
  have haddr := address_maskRead m ((rbRegByte s).2.inSeg .rbB) (rbRegByte s).2.dev .read
    (rbRegByte s).2.cfg.codes.rbB
  rw [State.maskRead_inSeg] at haddr
  exact (rbRegByte_busOnly m s).trans haddr

theorem rbAddress_rega : (rbAddress s).2.rega = s.rega := (rbAddress_busOnly s s).rega

theorem rbRegByte_dev : (rbRegByte s).2.dev = s.dev := (rbRegByte_busOnly s s).dev

theorem rbReaddress_len : (rbReaddress s).2.len = s.len := (rbReaddress_busOnly s s).len

theorem rbAddress_err : (rbAddress s).2.err = 0 :=
  (address_busOnly s.dev .write s.cfg.codes.rbA s.readStart).err

theorem rbRegByte_err : (rbRegByte s).2.err = 0 :=
  (txByte_busOnly _ _ ((rbAddress s).2.inSeg .rbReg)).err.trans (rbAddress_err s)

/-- ERR is still 0 where the second addressing has ended (R230). -/
theorem rbReaddress_err : (rbReaddress s).2.err = 0 :=
  (address_busOnly _ .read _ ((rbRegByte s).2.inSeg .rbB)).err.trans (rbRegByte_err s)

theorem readPhases_busOnly : BusOnly (m.maskRead s) (m.maskRead (readPhases s)) := by
  rw [readPhases_eq]
  split
  · exact rbAddress_busOnly m s
  split
  · exact rbRegByte_busOnly m s
  split
  · exact rbReaddress_busOnly m s
  · have hloop := readLoop_busOnly m (rbReaddress s).2.len.toNat ((rbReaddress s).2.startLoop .rbData)
    rw [State.maskRead_startLoop] at hloop
    exact (rbReaddress_busOnly m s).trans hloop

/-- The stop of RDBLK, after its phases (R232). -/
def rbStop : WaitEnd × State := stopSeq ((readPhases s).inSeg .rbStop)

theorem runRdblk_eq : runRdblk s = finish (rbStop s).2.err (rbStop s).2 := rfl

theorem rbStop_err : (rbStop s).2.err = (readPhases s).err := (stopSeq_busOnly ((readPhases s).inSeg .rbStop)).err

theorem rbStop_busOnly : BusOnly (m.maskRead s) (m.maskRead (rbStop s).2) := by
  have hstop := (stopSeq_busOnly ((readPhases s).inSeg .rbStop)).maskRead m
  rw [State.maskRead_inSeg] at hstop
  exact (readPhases_busOnly m s).trans hstop

end

/-! ## STOP, RESET and CONFIGURE -/

theorem runStop_eq (s : State) : ∃ c, runStop s = finish c (stopSeq (s.inSeg .st)).2 := by
  unfold runStop State.inSeg
  simp only
  split
  · exact ⟨_, rfl⟩
  · exact ⟨_, rfl⟩

theorem waitLoop_st (p : Phase) (n : Nat) (s : State) : (waitLoop p n s).2.st = s.st := by
  induction n generalizing s with
  | zero => rfl
  | succ n ih =>
    have hpoll : (doPoll p s).2.st = s.st := by simp [doPoll_eq]
    simp only [waitLoop]
    split
    · exact hpoll
    · exact (ih _).trans hpoll

theorem stopSeq_st (s : State) : (stopSeq s).2.st = s.st := by
  obtain ⟨-, -, -, hst, -⟩ := doTrigger_spec .sTrig s.cfg.cw.stop s
  exact (waitLoop_st .sWait _ _).trans hst

/-- `s` with all but the sequencer registers, RESULT, BUF, the parameters and HOST's moves taken from `b`. -/
def State.withIo (s b : State) : State :=
  { s with
    en := b.en, sta := b.sta, sto := b.sto, ea := b.ea, flag := b.flag, stat := b.stat, statWritten := b.statWritten
    data := b.data, div := b.div, pu := b.pu, ph := b.ph, seg := b.seg, script := b.script, clock := b.clock
    draws := b.draws, trace := b.trace }

/-- From `s` to `t` no sequencer register but PH and SEG changed, nor RESULT, BUF, the parameters or HOST's moves. -/
def IoOnly (s t : State) : Prop := t = s.withIo t

theorem IoOnly.trans {s t u : State} (h : IoOnly s t) (k : IoOnly t u) : IoOnly s u :=
  calc u = t.withIo u := k
    _ = (s.withIo t).withIo u := by rw [← h]
    _ = s.withIo u := rfl

theorem enter_ioOnly (p : Phase) (s : State) : IoOnly s (enter p s) := by
  have h := enter_busOnly p s
  rw [IoOnly, State.withIo, ← h.opc, ← h.dev, ← h.rega, ← h.len, ← h.val, ← h.khz, ← h.puen, ← h.idx, ← h.retry, ← h.err,
    ← h.dir, ← h.rxb, ← h.txb, ← h.result, ← h.resultValid, ← h.buf, ← h.cfg, ← h.host, ← enter_poll p s,
    ← enter_st p s]

theorem doConfigDiv_ioOnly (s : State) : IoOnly s (doConfigDiv s) := by
  refine (enter_ioOnly .cfgDiv s).trans ?_
  simp only [doConfigDiv]
  split
  · exact Eq.refl (writeDiv _ _)
  · exact Eq.refl (writeDiv _ _)

theorem doConfigPullup_ioOnly (s : State) : IoOnly s (doConfigPullup s) :=
  (enter_ioOnly .cfgPu s).trans (Eq.refl (writePullup _ _))

theorem doConfigEnable_ioOnly (s : State) : IoOnly s (doConfigEnable s) :=
  (enter_ioOnly .cfgEn s).trans (Eq.refl (writeCtrl _ _))

theorem doResetCtrl_ioOnly (s : State) : IoOnly s (doResetCtrl s) := (enter_ioOnly .xCtrl s).trans (Eq.refl (writeCtrl _ _))

theorem finishQuiet_ioOnly (s : State) : IoOnly s (finishQuiet s) := rfl

theorem inSeg_ioOnly (s : State) (g : Seg) : IoOnly s (s.inSeg g) := rfl

theorem runConfigure_ioOnly (s : State) : IoOnly s (runConfigure s) :=
  ((((inSeg_ioOnly s .cfg).trans (doConfigDiv_ioOnly _)).trans (doConfigPullup_ioOnly _)).trans
    (doConfigEnable_ioOnly _)).trans (finishQuiet_ioOnly _)

theorem runReset_ioOnly (s : State) : IoOnly s (runReset s) :=
  ((inSeg_ioOnly s .rst).trans (doResetCtrl_ioOnly _)).trans (finishQuiet_ioOnly _)

/-! ## What every command leaves -/

/-- `s` with what accesses on the bus change taken from `b`. -/
def State.withBus (s b : State) : State :=
  { s with
    en := b.en, sta := b.sta, sto := b.sto, ea := b.ea, flag := b.flag, stat := b.stat, statWritten := b.statWritten
    data := b.data, poll := b.poll, st := b.st, ph := b.ph, script := b.script, clock := b.clock, draws := b.draws
    trace := b.trace }

theorem BusOnly.eq_withBus {s t : State} (h : BusOnly s t) : t = s.withBus t := by
  rw [State.withBus, ← h.div, ← h.pu, ← h.opc, ← h.dev, ← h.rega, ← h.len, ← h.val, ← h.khz, ← h.puen, ← h.idx,
    ← h.retry, ← h.err, ← h.dir, ← h.rxb, ← h.txb, ← h.seg, ← h.result, ← h.resultValid, ← h.buf, ← h.cfg, ← h.host]

section
variable (s : State)

/-! The final state of each command that returns a status: `finish` after the command's frame. -/

theorem address_retryFrame (dev : BitVec 7) (dir : Dir) (c : AddrCodes) :
    BusOnly { s with dir := dir, retry := (address dev dir c s).2.retry } (address dev dir c s).2 :=
  { address_busOnly dev dir c s with retry := rfl }

theorem runBegin_form :
    ∃ c r b, runBegin s = finish c (State.withBus { s with dir := .write, seg := .bt, retry := r } b) :=
  ⟨_, _, _, congrArg (finish _) (address_retryFrame (s.inSeg .bt) s.dev .write s.cfg.codes.bt).eq_withBus⟩

theorem runSend_form : ∃ c b, runSend s = finish c ((s.inSeg .sb).withBus b) :=
  ⟨_, _, congrArg (finish _) (txByte_busOnly s.val s.cfg.codes.sb (s.inSeg .sb)).eq_withBus⟩

theorem runWrblk_form : ∃ m b, (runWrblk s).2 = (State.maskWrite m { s with dir := .write }).withBus b :=
  ⟨(runWrblk s).2, _, (runWrblk_busOnly (runWrblk s).2 s).eq_withBus⟩

theorem rbStop_form : ∃ m b, (rbStop s).2 = (State.maskRead m s).withBus b :=
  ⟨(rbStop s).2, _, (rbStop_busOnly (rbStop s).2 s).eq_withBus⟩

theorem runStop_form : ∃ c b, b.st = s.st ∧ runStop s = finish c ((s.inSeg .st).withBus b) := by
  obtain ⟨c, hc⟩ := runStop_eq s
  exact ⟨c, _, stopSeq_st (s.inSeg .st), hc.trans (congrArg (finish c) (stopSeq_busOnly (s.inSeg .st)).eq_withBus)⟩

end

/-- Settles O47: each command's final state is its frame's. -/
theorem workingRegisters : Obligations.WorkingRegisters := by
  intro i s t h
  have hrun := exec_next h
  cases i with
  | configure khz pu =>
    have ht := Host.Outcome.next.inj hrun
    have hio := runConfigure_ioOnly (accepted (.configure khz pu) s)
    rw [ht] at hio
    rw [hio]
    exact ⟨rfl, rfl⟩
  | beginTrans dev =>
    obtain ⟨c, r, b, hform⟩ := runBegin_form (accepted (.beginTrans dev) s)
    rw [runCommand, hform] at hrun
    cases hrun
    exact ⟨rfl, rfl⟩
  | send val =>
    obtain ⟨c, b, hform⟩ := runSend_form (accepted (.send val) s)
    rw [runCommand, hform] at hrun
    cases hrun
    exact ⟨rfl, rfl⟩
  | wrblk dev reg len =>
    obtain ⟨m, b, hform⟩ := runWrblk_form (accepted (.wrblk dev reg len) s)
    obtain ⟨c, -, rfl⟩ := wrblkOutcome_next hrun
    rw [hform]
    exact ⟨rfl, rfl⟩
  | rdblk dev reg len =>
    obtain ⟨m, b, hform⟩ := rbStop_form (accepted (.rdblk dev reg len) s)
    rw [runCommand, runRdblk_eq, hform] at hrun
    cases hrun
    exact ⟨rfl, rfl⟩
  | stop =>
    obtain ⟨c, b, hst, hform⟩ := runStop_form (accepted .stop s)
    rw [accepted_st] at hst
    rw [runCommand, hform] at hrun
    cases hrun
    simp only [← hst]
    exact ⟨rfl, rfl⟩
  | reset =>
    have ht := Host.Outcome.next.inj hrun
    have hio := runReset_ioOnly (accepted .reset s)
    rw [ht] at hio
    rw [hio]
    exact ⟨rfl, rfl⟩

/-- Settles O49: only CONFIGURE writes DIV and PULLUP. -/
theorem onlyConfigureSetsDivAndPu : Obligations.OnlyConfigureSetsDivAndPu := by
  intro i s t hi h
  have hrun := exec_next h
  suffices hsuff : t.div = (accepted i s).div ∧ t.pu = (accepted i s).pu by simpa using hsuff
  generalize accepted i s = u at hrun ⊢
  cases i with
  | configure khz pu => exact absurd rfl (hi khz pu)
  | beginTrans dev =>
    obtain ⟨c, r, b, hform⟩ := runBegin_form u
    cases hrun
    rw [hform]
    exact ⟨rfl, rfl⟩
  | send val =>
    obtain ⟨c, b, hform⟩ := runSend_form u
    cases hrun
    rw [hform]
    exact ⟨rfl, rfl⟩
  | wrblk dev reg len =>
    obtain ⟨m, b, hform⟩ := runWrblk_form u
    obtain ⟨c, -, rfl⟩ := wrblkOutcome_next hrun
    rw [hform]
    exact ⟨rfl, rfl⟩
  | rdblk dev reg len =>
    obtain ⟨m, b, hform⟩ := rbStop_form u
    cases hrun
    rw [runRdblk_eq, hform]
    exact ⟨rfl, rfl⟩
  | stop =>
    obtain ⟨c, b, -, hform⟩ := runStop_form u
    cases hrun
    rw [hform]
    exact ⟨rfl, rfl⟩
  | reset =>
    cases hrun
    have hb := enter_busOnly .xCtrl (u.inSeg .rst)
    exact ⟨hb.div, hb.pu⟩

end Sys2Proof.Machine
end

-- ==== O46: no command depends on a dead register ====
section
/-! PROOFS. No command depends on a register that is dead while the block is idle (R47), nor on STAT and DATA (R84),
obligation O46. `SameLive` relates two states that agree on every other field; one lemma per access and per micro-sequence
says that it is kept and that both runs answer the same. STAT and DATA agree again once a trigger has cleared FLAG, since
then only a completion sets it (`SameBus`). -/

namespace Sys2Proof.Machine

/-! ## Two states that agree but for the dead registers -/

/-- `u` is `s` but for the dead registers, STAT and DATA. -/
def SameLive (s u : State) : Prop := ∃ d, u = withDead s d

/-- The two states agree and, where FLAG is set, on STAT and DATA too. -/
structure SameBus (s u : State) : Prop where
  live : SameLive s u
  stat : s.flag = true → u.stat = s.stat
  data : s.flag = true → u.data = s.data

/-- Both runs answer the same, in states that agree. -/
structure Alike {α : Type} (r q : α × State) : Prop where
  answer : q.1 = r.1
  live : SameLive r.2 q.2

/-- The words that trigger a phase are active (R9). -/
structure Config.TriggersActive (c : Config) : Prop where
  start : ControlWords.active c.bits c.cw.start = true
  xfer : ControlWords.active c.bits c.cw.xfer = true
  rxAck : ControlWords.active c.bits c.cw.rxAck = true
  rxNack : ControlWords.active c.bits c.cw.rxNack = true
  stop : ControlWords.active c.bits c.cw.stop = true

theorem Config.triggersActive_of_wf {c : Config} (h : c.wf = true) : Config.TriggersActive c := by
  have hcw : c.cw.wf c.bits = true := by simp_all [Config.wf]
  simp only [ControlWords.wf, Bool.and_eq_true] at hcw
  obtain ⟨⟨⟨⟨⟨⟨hstart, hxfer⟩, hrxAck⟩, hrxNack⟩, hstop⟩, -⟩, -⟩ := hcw
  exact ⟨hstart, hxfer, hrxAck, hrxNack, hstop⟩

section
variable {s u : State}

theorem SameLive.cfg (h : SameLive s u) : u.cfg = s.cfg := by obtain ⟨d, rfl⟩ := h; rfl
theorem SameLive.flag (h : SameLive s u) : u.flag = s.flag := by obtain ⟨d, rfl⟩ := h; rfl
theorem SameLive.buf (h : SameLive s u) : u.buf = s.buf := by obtain ⟨d, rfl⟩ := h; rfl
theorem SameLive.draws (h : SameLive s u) : u.draws = s.draws := by obtain ⟨d, rfl⟩ := h; rfl
theorem SameLive.statWritten (h : SameLive s u) : u.statWritten = s.statWritten := by obtain ⟨d, rfl⟩ := h; rfl

/-- Changes to the dead registers alone keep the agreement. -/
theorem SameLive.dead {s' u' : State} (h : SameLive s u) (hs : s' = withDead s s') (hu : u' = withDead u u') :
    SameLive s' u' := by
  obtain ⟨d, rfl⟩ := h
  rw [hs, hu]
  exact ⟨u', rfl⟩

theorem SameLive.withErr (h : SameLive s u) (a b : Byte) : SameLive { s with err := a } { u with err := b } :=
  h.dead rfl rfl

theorem SameLive.logEvent (h : SameLive s u) (e : PortEvent) : SameLive (logEvent e s) (logEvent e u) := by
  obtain ⟨d, rfl⟩ := h
  exact ⟨d, rfl⟩

theorem SameLive.withDraws (h : SameLive s u) (n : Nat) : SameLive { s with draws := n } { u with draws := n } := by
  obtain ⟨d, rfl⟩ := h
  exact ⟨d, rfl⟩

/-! ## PERIPH's turn (R79 to R82) -/

/-- PERIPH's coming moves and the counter of its free ones (log 7). -/
def State.withMoves (moves : List PeriphMove) (n : Nat) (s : State) : State := { s with script := moves, clock := n }

theorem SameLive.withMoves (h : SameLive s u) (moves : List PeriphMove) (n : Nat) :
    SameLive (s.withMoves moves n) (u.withMoves moves n) := by
  obtain ⟨d, rfl⟩ := h
  exact ⟨d, rfl⟩

/-- PERIPH takes the same turn in both states, so a relation that its moves keep its turn keeps. -/
theorem periphTurn_related {R : State → State → Prop} (h : SameLive s u) (hR : R s u)
    (hmove : ∀ m moves n, R (periphMove m (s.withMoves moves n)) (periphMove m (u.withMoves moves n))) :
    R (periphTurn s) (periphTurn u) := by
  obtain ⟨d, rfl⟩ := h
  have hen : periphEnabled (withDead s d) = periphEnabled s := rfl
  have hscript : (withDead s d).script = s.script := rfl
  unfold periphTurn
  rw [hen, hscript]
  cases periphEnabled s with
  | false => exact hR
  | true =>
    cases s.script with
    | nil => exact hmove (Config.freePeriphMove s.clock) [] (s.clock + 1)
    | cons m rest => exact hmove m rest s.clock

theorem periphMove_sameLive (h : SameLive s u) (m : PeriphMove) : SameLive (periphMove m s) (periphMove m u) := by
  obtain ⟨d, rfl⟩ := h
  cases m with
  | stay => exact ⟨d, rfl⟩
  | complete x y => exact ⟨periphStep x y d, rfl⟩

/-- A completion gives both states the same STAT and DATA (R80). -/
theorem periphMove_sameBus (h : SameBus s u) (m : PeriphMove) : SameBus (periphMove m s) (periphMove m u) := by
  refine ⟨periphMove_sameLive h.live m, ?_, ?_⟩
  · cases m with
    | stay => exact h.stat
    | complete x y => exact fun _ => rfl
  · cases m with
    | stay => exact h.data
    | complete x y => exact fun _ => rfl

theorem periphTurn_sameLive (h : SameLive s u) : SameLive (periphTurn s) (periphTurn u) :=
  periphTurn_related h h fun m moves n => periphMove_sameLive (h.withMoves moves n) m

theorem periphTurn_sameBus (h : SameBus s u) : SameBus (periphTurn s) (periphTurn u) :=
  periphTurn_related h.live h fun m moves n => periphMove_sameBus ⟨h.live.withMoves moves n, h.stat, h.data⟩ m

theorem enter_sameLive (p : Phase) (h : SameLive s u) : SameLive (enter p s) (enter p u) := by
  obtain ⟨d, hd⟩ := periphTurn_sameLive h
  exact ⟨d, by rw [enter_eq, enter_eq, hd]; rfl⟩

theorem enter_sameBus (p : Phase) (h : SameBus s u) : SameBus (enter p s) (enter p u) := by
  have ht := periphTurn_sameBus h
  refine ⟨enter_sameLive p h.live, ?_, ?_⟩
  · rw [enter_eq, enter_eq]; exact ht.stat
  · rw [enter_eq, enter_eq]; exact ht.data

/-! ## The accesses of the phases -/

theorem writeCtrl_sameLive (w : Byte) (h : SameLive s u) : SameLive (writeCtrl w s) (writeCtrl w u) := by
  obtain ⟨d, rfl⟩ := h
  exact ⟨d, rfl⟩

theorem doWriteData_sameLive (p : Phase) (v : Byte) (h : SameLive s u) :
    SameLive (doWriteData p v s) (doWriteData p v u) :=
  ((enter_sameLive p h).dead rfl rfl).logEvent (.ioWrite .data v)

theorem doTrigger_sameLive (p : Phase) (w : Byte) (h : SameLive s u) :
    SameLive (doTrigger p w s) (doTrigger p w u) :=
  (writeCtrl_sameLive w (enter_sameLive p h)).dead rfl rfl

/-- A trigger clears FLAG, so what STAT and DATA held before does not matter after it. -/
theorem doTrigger_sameBus (p : Phase) {w : Byte} (h : SameLive s u) (hw : ControlWords.active s.cfg.bits w = true) :
    SameBus (doTrigger p w s) (doTrigger p w u) := by
  have hclear : (doTrigger p w s).flag = false := (doTrigger_active p w s hw).1
  refine ⟨doTrigger_sameLive p w h, ?_, ?_⟩ <;> simp [hclear]

theorem doTrigger_poll (p : Phase) (w : Byte) (s : State) : (doTrigger p w s).poll = s.cfg.pollLimit := by
  obtain ⟨-, -, hpoll, -⟩ := doTrigger_spec p w s
  exact hpoll

/-- A poll sees the same FLAG in both states (R73). -/
theorem doPoll_sameBus (p : Phase) (h : SameBus s u) :
    (doPoll p u).1 = (doPoll p s).1 ∧ SameBus (doPoll p s).2 (doPoll p u).2 := by
  have hb := enter_sameBus p h
  rw [doPoll_eq, doPoll_eq, h.live.draws, hb.live.flag]
  exact ⟨rfl, ((hb.live.withDraws _).logEvent _).dead rfl rfl, hb.stat, hb.data⟩

theorem readStat_unwritten (s : State) (h : s.statWritten = false) :
    readStat s = (Config.freeByte s.draws,
      logEvent (.ioRead .stat (Config.freeByte s.draws)) { s with draws := s.draws + 1 }) := by simp [readStat, h]

/-- A read of STAT after a completion returns the same byte (R74). -/
theorem readStat_sameBus (h : SameBus s u) (hf : s.flag = true) :
    (readStat u).1 = (readStat s).1 ∧ SameBus (readStat s).2 (readStat u).2 := by
  cases hw : s.statWritten with
  | true =>
    rw [readStat_written s hw, readStat_written u (h.live.statWritten.trans hw), h.stat hf]
    exact ⟨rfl, h.live.logEvent _, h.stat, h.data⟩
  | false =>
    rw [readStat_unwritten s hw, readStat_unwritten u (h.live.statWritten.trans hw), h.live.draws]
    exact ⟨rfl, (h.live.withDraws _).logEvent _, h.stat, h.data⟩

theorem readStat_flag (s : State) : (readStat s).2.flag = s.flag := by
  unfold readStat
  split <;> rfl

theorem doStatus_flag_kept (p : Phase) (hf : s.flag = true) : (doStatus p s).flag = true :=
  (readStat_flag _).trans (periphTurn_flag _ hf)

theorem doStatus_sameBus (p : Phase) (h : SameBus s u) (hf : s.flag = true) :
    (doStatus p u).st = (doStatus p s).st ∧ SameBus (doStatus p s) (doStatus p u) := by
  obtain ⟨hbyte, hb⟩ := readStat_sameBus (enter_sameBus p h) (periphTurn_flag _ hf)
  refine ⟨?_, hb.live.dead rfl rfl, hb.stat, hb.data⟩
  simp only [doStatus, hbyte, hb.live.cfg]

/-! ## WAIT (R160) -/

theorem waitLoop_sameBus (p : Phase) (n : Nat) (h : SameBus s u) :
    (waitLoop p n u).1 = (waitLoop p n s).1 ∧ SameBus (waitLoop p n s).2 (waitLoop p n u).2 := by
  induction n generalizing s u with
  | zero => exact ⟨rfl, h⟩
  | succ n ih =>
    obtain ⟨hint, hb⟩ := doPoll_sameBus p h
    simp only [waitLoop, hint]
    split
    · exact ⟨rfl, hb⟩
    · exact ih hb

/-- A trigger and the WAIT after it forget what the dead registers, STAT and DATA held. -/
theorem triggerWait_sameBus (p q : Phase) {w : Byte} (h : SameLive s u)
    (hw : ControlWords.active s.cfg.bits w = true) :
    (wait p (doTrigger q w u)).1 = (wait p (doTrigger q w s)).1 ∧
      SameBus (wait p (doTrigger q w s)).2 (wait p (doTrigger q w u)).2 := by
  rw [wait, wait, doTrigger_poll, doTrigger_poll, h.cfg]
  exact waitLoop_sameBus p _ (doTrigger_sameBus q h hw)

theorem stopSeq_alike (h : SameLive s u) (hw : Config.TriggersActive s.cfg) : Alike (stopSeq s) (stopSeq u) := by
  obtain ⟨hend, hb⟩ := triggerWait_sameBus .sWait .sTrig h hw.stop
  rw [stopSeq, stopSeq, h.cfg]
  exact ⟨hend, hb.live⟩

/-! ## TXBYTE (R170) -/

theorem txWait_sameBus (v : Byte) (h : SameLive s u) (hw : Config.TriggersActive s.cfg) :
    (txWait v u).1 = (txWait v s).1 ∧ SameBus (txWait v s).2 (txWait v u).2 := by
  have hcfg : (doWriteData .tData v s).cfg = s.cfg := (doWriteData_busOnly .tData v s).cfg
  have hdata := doWriteData_sameLive .tData v h
  rw [txWait, txWait, hdata.cfg]
  exact triggerWait_sameBus .tWait .tTrig hdata (by rw [hcfg]; exact hw.xfer)

theorem txByte_alike (v : Byte) (c : TxCodes) (h : SameLive s u) (hw : Config.TriggersActive s.cfg) :
    Alike (txByte v c s) (txByte v c u) := by
  obtain ⟨hend, hb⟩ := txWait_sameBus v h hw
  cases he : (txWait v s).1 with
  | timeout =>
    rw [txByte_timeout v c s he, txByte_timeout v c u (hend.trans he)]
    exact ⟨rfl, hb.live⟩
  | ok =>
    obtain ⟨hst, hb2⟩ := doStatus_sameBus .tStat hb (wait_ok_flag _ _ he)
    rw [txByte_ok v c s he, txByte_ok v c u (hend.trans he)]
    refine ⟨?_, hb2.live⟩
    simp only [txVerdict, hst, hb2.live.cfg]

/-! ## ADDRESS (R165) -/

theorem startWait_sameBus (h : SameLive s u) (hw : Config.TriggersActive s.cfg) :
    (startWait u).1 = (startWait s).1 ∧ SameBus (startWait s).2 (startWait u).2 := by
  rw [startWait, startWait, h.cfg]
  exact triggerWait_sameBus .aStartWait .aStart h hw.start

theorem addrWait_sameBus (dev : BitVec 7) (dir : Dir) (h : SameLive s u) (hw : Config.TriggersActive s.cfg) :
    (addrWait dev dir u).1 = (addrWait dev dir s).1 ∧ SameBus (addrWait dev dir s).2 (addrWait dev dir u).2 := by
  have hcfg : (doWriteData .aAddrData (addrByte dev dir) s).cfg = s.cfg := (doWriteData_busOnly ..).cfg
  have hdata := doWriteData_sameLive .aAddrData (addrByte dev dir) h
  rw [addrWait, addrWait, hdata.cfg]
  exact triggerWait_sameBus .aAddrWait .aAddrTrig hdata (by rw [hcfg]; exact hw.xfer)

/-- One attempt of ADDRESS answers the same, and where ST holds the address status it holds the same. -/
theorem addressAttempt_alike (dev : BitVec 7) (dir : Dir) (c : AddrCodes) (h : SameLive s u)
    (hw : Config.TriggersActive s.cfg) :
    Alike (addressAttempt dev dir c s) (addressAttempt dev dir c u) ∧
      ((addressAttempt dev dir c s).1 = none →
        (addressAttempt dev dir c u).2.st = (addressAttempt dev dir c s).2.st) := by
  obtain ⟨hstart, hb⟩ := startWait_sameBus h hw
  cases he : (startWait s).1 with
  | timeout =>
    rw [addressAttempt_startTimeout _ _ c s he, addressAttempt_startTimeout _ _ c u (hstart.trans he)]
    exact ⟨⟨rfl, hb.live⟩, nofun⟩
  | ok =>
    obtain ⟨hst, hb1⟩ := doStatus_sameBus .aStartStat hb (wait_ok_flag _ _ he)
    have hcheck : isStartStatus (startStat u).cfg.status (startStat u).st =
        isStartStatus (startStat s).cfg.status (startStat s).st := by
      rw [startStat, startStat, hst, hb1.live.cfg]
    cases hs : isStartStatus (startStat s).cfg.status (startStat s).st with
    | false =>
      rw [addressAttempt_startStatus _ _ c s he hs,
        addressAttempt_startStatus _ _ c u (hstart.trans he) (hcheck.trans hs)]
      exact ⟨⟨rfl, hb1.live⟩, nofun⟩
    | true =>
      rw [← (startStat_busOnly s).cfg] at hw
      obtain ⟨haddr, hb2⟩ := addrWait_sameBus dev dir hb1.live hw
      cases ha : (addrWait dev dir (startStat s)).1 with
      | timeout =>
        rw [addressAttempt_addrTimeout _ _ c s he hs ha,
          addressAttempt_addrTimeout _ _ c u (hstart.trans he) (hcheck.trans hs) (haddr.trans ha)]
        exact ⟨⟨rfl, hb2.live⟩, nofun⟩
      | ok =>
        obtain ⟨hst2, hb3⟩ := doStatus_sameBus .aAddrStat hb2 (wait_ok_flag _ _ ha)
        rw [addressAttempt_addrOk _ _ c s he hs ha,
          addressAttempt_addrOk _ _ c u (hstart.trans he) (hcheck.trans hs) (haddr.trans ha)]
        exact ⟨⟨rfl, hb3.live⟩, fun _ => hst2⟩

theorem addressLoop_alike (dev : BitVec 7) (dir : Dir) (c : AddrCodes) (n : Nat) (h : SameLive s u)
    (hw : Config.TriggersActive s.cfg) : Alike (addressLoop dev dir c n s) (addressLoop dev dir c n u) := by
  induction n using Nat.strong_induction_on generalizing s u with | _ n ih
  obtain ⟨⟨hcode, hlive⟩, hst⟩ := addressAttempt_alike dev dir c h hw
  cases hc : (addressAttempt dev dir c s).1 with
  | some code =>
    rw [addressLoop_failed _ _ c s n hc, addressLoop_failed _ _ c u n (hcode.trans hc)]
    exact ⟨rfl, hlive⟩
  | none =>
    have hst := hst hc
    by_cases hn : (addressAttempt dev dir c s).2.st = nackOf (addressAttempt dev dir c s).2.cfg.status dir ∧ n ≠ 0
    · obtain ⟨hnack, hpos⟩ := hn
      obtain ⟨m, rfl⟩ := Nat.exists_eq_succ_of_ne_zero hpos
      rw [addressLoop_retry _ _ c s m hc hnack,
        addressLoop_retry _ _ c u m (hcode.trans hc) (by rw [hst, hlive.cfg]; exact hnack)]
      rw [← (addressAttempt_busOnly dev dir c s).cfg] at hw
      exact ih m (Nat.lt_succ_self m) (hlive.dead rfl rfl) hw
    · rw [addressLoop_verdict _ _ c s n hc hn,
        addressLoop_verdict _ _ c u n (hcode.trans hc) (by rw [hst, hlive.cfg]; exact hn), hst, hlive.cfg]
      exact ⟨rfl, hlive⟩

theorem address_alike (dev : BitVec 7) (dir : Dir) (c : AddrCodes) (h : SameLive s u)
    (hw : Config.TriggersActive s.cfg) : Alike (address dev dir c s) (address dev dir c u) := by
  have hretries : u.cfg.addrRetries.toNat = s.cfg.addrRetries.toNat := by rw [h.cfg]
  rw [address, address, hretries]
  exact addressLoop_alike dev dir c _ (h.dead rfl rfl) hw

/-! ## The data loops (R220, R231) -/

theorem SameLive.withBuf (h : SameLive s u) (b : Memory) : SameLive { s with buf := b } { u with buf := b } := by
  obtain ⟨d, rfl⟩ := h
  exact ⟨d, rfl⟩

/-- The fetch of a byte to transmit reads the same byte, or faults in both states. -/
theorem doFetch_sameLive (h : SameLive s u) (hidx : u.idx = s.idx) :
    (doFetch s = none ∧ doFetch u = none) ∨
      ∃ t v, doFetch s = some t ∧ doFetch u = some v ∧ SameLive t v ∧ v.txb = t.txb := by
  have hread : Memory.read u.buf u.idx.toNat = Memory.read s.buf s.idx.toNat := by rw [h.buf, hidx]
  cases hv : Memory.read s.buf s.idx.toNat with
  | none => exact .inl ⟨doFetch_none s hv, doFetch_none u (hread.trans hv)⟩
  | some v =>
    refine .inr ⟨_, _, doFetch_some s v hv, doFetch_some u v (hread.trans hv), ?_, rfl⟩
    rw [hidx]
    exact ((enter_sameLive .tFetch h).dead rfl rfl).logEvent _

theorem sendFetched_alike (h : SameLive s u) (htxb : u.txb = s.txb) (hw : Config.TriggersActive s.cfg) :
    Alike (sendFetched s) (sendFetched u) := by
  rw [sendFetched, sendFetched, htxb, h.cfg]
  exact txByte_alike _ _ h hw

theorem writeLoop_alike (n : Nat) (h : SameLive s u) (hidx : u.idx = s.idx) (hw : Config.TriggersActive s.cfg) :
    Alike (writeLoop n s) (writeLoop n u) := by
  induction n generalizing s u with
  | zero => exact ⟨rfl, h⟩
  | succ n ih =>
    rcases doFetch_sameLive h hidx with ⟨hs, hu⟩ | ⟨t, v, hs, hu, hlive, htxb⟩
    · rw [writeLoop_noFetch n hs, writeLoop_noFetch n hu, hidx]
      exact ⟨rfl, h⟩
    · have hst := doFetch_busOnly hs
      have huv := doFetch_busOnly hu
      rw [← show t.cfg = s.cfg from hst.cfg] at hw
      obtain ⟨hcode, hsent⟩ := sendFetched_alike hlive htxb hw
      rw [writeLoop_fetch n hs, writeLoop_fetch n hu, hcode]
      split
      · exact ⟨rfl, hsent⟩
      · have hidx' : (sendFetched v).2.idx = (sendFetched t).2.idx := by
          rw [(sendFetched_busOnly v).idx, (sendFetched_busOnly t).idx]
          exact huv.idx.trans (hidx.trans hst.idx.symm)
        rw [← (sendFetched_busOnly t).cfg] at hw
        exact ih (hsent.dead rfl rfl) (congrArg (· + 1) hidx') hw

/-- A receive request asks for the same acknowledge in both states (R231). -/
theorem receiveWait_sameBus (h : SameLive s u) (hidx : u.idx = s.idx) (hlen : u.len = s.len)
    (hw : Config.TriggersActive s.cfg) :
    (receiveWait u).1 = (receiveWait s).1 ∧ SameBus (receiveWait s).2 (receiveWait u).2 := by
  have hword : rxWord u = rxWord s := by rw [rxWord, rxWord, hidx, hlen, h.cfg]
  have hactive : ControlWords.active s.cfg.bits (rxWord s) = true := by
    unfold rxWord
    split
    · exact hw.rxAck
    · exact hw.rxNack
  rw [receiveWait, receiveWait, hword]
  exact triggerWait_sameBus .rWait .rTrig h hactive

/-- The byte received after a completion is the same (R75, R80). -/
theorem doReceive_sameLive (h : SameBus s u) (hf : s.flag = true) :
    (doReceive u).rxb = (doReceive s).rxb ∧ SameLive (doReceive s) (doReceive u) := by
  have hb := enter_sameBus .rData h
  have hdata : (enter .rData u).data = (enter .rData s).data := hb.data (periphTurn_flag _ hf)
  refine ⟨hdata, ?_⟩
  rw [doReceive, doReceive, readData, readData, hdata]
  exact (hb.live.logEvent _).dead rfl rfl

theorem doStore_sameLive (h : SameLive s u) (hidx : u.idx = s.idx) (hrxb : u.rxb = s.rxb) :
    SameLive (doStore s) (doStore u) := by
  have hs := enter_busOnly .rStore s
  have hu := enter_busOnly .rStore u
  have hb := enter_sameLive .rStore h
  have hidx' : (enter .rStore u).idx = (enter .rStore s).idx := by rw [hu.idx, hs.idx, hidx]
  have hrxb' : (enter .rStore u).rxb = (enter .rStore s).rxb := by rw [hu.rxb, hs.rxb, hrxb]
  unfold doStore
  generalize enter .rStore s = a at hb hidx' hrxb' ⊢
  generalize enter .rStore u = b at hb hidx' hrxb' ⊢
  simp only [hidx', hrxb', hb.buf]
  exact ((hb.withBuf (Memory.write a.buf a.idx.toNat a.rxb)).dead rfl rfl).logEvent _

theorem doReceive_idx (s : State) : (doReceive s).idx = s.idx := (enter_busOnly .rData s).idx

theorem doReceive_doStore_err (s : State) : (doStore (doReceive s)).err = s.err :=
  (enter_busOnly .rStore (doReceive s)).err.trans (enter_busOnly .rData s).err

/-- The receive loop stores the same bytes and leaves the same failure in ERR. -/
theorem readLoop_sameLive (n : Nat) (h : SameLive s u) (hidx : u.idx = s.idx) (hlen : u.len = s.len)
    (herr : u.err = s.err) (hw : Config.TriggersActive s.cfg) :
    SameLive (readLoop n s) (readLoop n u) ∧ (readLoop n u).err = (readLoop n s).err := by
  induction n generalizing s u with
  | zero => exact ⟨h, herr⟩
  | succ n ih =>
    obtain ⟨hend, hb⟩ := receiveWait_sameBus h hidx hlen hw
    cases he : (receiveWait s).1 with
    | timeout =>
      rw [readLoop_timeout s n he, readLoop_timeout u n (hend.trans he)]
      exact ⟨hb.live.withErr _ _, by rw [hb.live.cfg]⟩
    | ok =>
      have hflag : (receiveWait s).2.flag = true := wait_ok_flag _ _ he
      obtain ⟨hst, hb2⟩ := doStatus_sameBus .rStat hb hflag
      have hfs := receiveStat_busOnly s
      have hfu := receiveStat_busOnly u
      rw [← receiveStat, ← receiveStat] at hst hb2
      rw [readLoop_ok s n he, readLoop_ok u n (hend.trans he), hst, hb2.live.cfg]
      split
      · obtain ⟨hrxb, hread⟩ := doReceive_sameLive hb2 (doStatus_flag_kept .rStat hflag)
        obtain ⟨sidx, slen, scfg⟩ := doReceive_doStore_keeps (receiveStat s)
        obtain ⟨uidx, ulen, -⟩ := doReceive_doStore_keeps (receiveStat u)
        have hidx' : (receiveStat u).idx = (receiveStat s).idx := by rw [hfu.idx, hfs.idx, hidx]
        have hreadIdx : (doReceive (receiveStat u)).idx = (doReceive (receiveStat s)).idx  := by
          rw [doReceive_idx, doReceive_idx, hidx']
        rw [← hfs.cfg, ← scfg] at hw
        refine ih (doStore_sameLive hread hreadIdx hrxb) ?_ ?_ ?_ hw
        · rw [uidx, sidx, hidx']
        · rw [ulen, slen, hfu.len, hfs.len, hlen]
        · rw [doReceive_doStore_err, doReceive_doStore_err, hfu.err, hfs.err, herr]
      · exact ⟨hb2.live.withErr _ _, rfl⟩

/-! ## The commands -/

theorem SameLive.inSeg (h : SameLive s u) (g : Seg) : SameLive (s.inSeg g) (u.inSeg g) := h.dead rfl rfl

theorem SameLive.startLoop (h : SameLive s u) (g : Seg) : SameLive (s.startLoop g) (u.startLoop g) := h.dead rfl rfl

theorem SameLive.finish (h : SameLive s u) (c : Byte) : SameLive (finish c s) (finish c u) := by
  obtain ⟨d, rfl⟩ := h
  exact ⟨d, rfl⟩

theorem SameLive.finishQuiet (h : SameLive s u) : SameLive (finishQuiet s) (finishQuiet u) := by
  obtain ⟨d, rfl⟩ := h
  exact ⟨d, rfl⟩

theorem SameLive.writeDiv (h : SameLive s u) (v : Byte) : SameLive (writeDiv v s) (writeDiv v u) := by
  obtain ⟨d, rfl⟩ := h
  exact ⟨d, rfl⟩

theorem SameLive.writePullup (h : SameLive s u) (v : Byte) : SameLive (writePullup v s) (writePullup v u) := by
  obtain ⟨d, rfl⟩ := h
  exact ⟨d, rfl⟩

theorem Alike.finish {r q : Byte × State} (h : Alike r q) : SameLive (finish r.1 r.2) (finish q.1 q.2) :=
  h.answer ▸ h.live.finish r.1

theorem doConfigDiv_sameLive (h : SameLive s u) (hkhz : u.khz = s.khz) :
    SameLive (doConfigDiv s) (doConfigDiv u) := by
  have hs := enter_busOnly .cfgDiv s
  have hu := enter_busOnly .cfgDiv u
  have hb := enter_sameLive .cfgDiv h
  have hdiv : divisor (enter .cfgDiv u).cfg.divisor (enter .cfgDiv u).khz =
      divisor (enter .cfgDiv s).cfg.divisor (enter .cfgDiv s).khz := by rw [hb.cfg, hu.khz, hs.khz, hkhz]
  simp only [doConfigDiv, hdiv, hb.draws]
  split
  · exact hb.writeDiv _
  · exact (hb.withDraws _).writeDiv _

theorem doConfigPullup_sameLive (h : SameLive s u) (hpu : u.puen = s.puen) :
    SameLive (doConfigPullup s) (doConfigPullup u) := by
  have hbit : (enter .cfgPu u).puen = (enter .cfgPu s).puen := by
    rw [(enter_busOnly .cfgPu u).puen, (enter_busOnly .cfgPu s).puen, hpu]
  rw [doConfigPullup, doConfigPullup, hbit]
  exact (enter_sameLive .cfgPu h).writePullup _

theorem doConfigEnable_sameLive (h : SameLive s u) : SameLive (doConfigEnable s) (doConfigEnable u) := by
  have hb := enter_sameLive .cfgEn h
  rw [doConfigEnable, doConfigEnable, hb.cfg]
  exact writeCtrl_sameLive _ hb

theorem doResetCtrl_sameLive (h : SameLive s u) : SameLive (doResetCtrl s) (doResetCtrl u) := by
  have hb := enter_sameLive .xCtrl h
  rw [doResetCtrl, doResetCtrl, hb.cfg]
  exact writeCtrl_sameLive _ hb

/-- STOP ends with a code that its WAIT decides (R250). -/
theorem runStop_code (s : State) :
    runStop s = finish (if (stopSeq (s.inSeg .st)).1 = .timeout then (stopSeq (s.inSeg .st)).2.cfg.codes.stTimeout else 0)
      (stopSeq (s.inSeg .st)).2 := by
  unfold runStop State.inSeg
  simp only
  split
  · rename_i he
    simp [he]
  · rename_i he
    simp [he]

theorem runConfigure_sameLive (h : SameLive s u) (hkhz : u.khz = s.khz) (hpu : u.puen = s.puen) :
    SameLive (runConfigure s) (runConfigure u) := by
  have hdiv := doConfigDiv_sameLive (h.inSeg .cfg) hkhz
  have hlatch : (doConfigDiv (u.inSeg .cfg)).puen = (doConfigDiv (s.inSeg .cfg)).puen := by
    rw [doConfigDiv_ioOnly (u.inSeg .cfg), doConfigDiv_ioOnly (s.inSeg .cfg)]
    exact hpu
  exact (doConfigEnable_sameLive (doConfigPullup_sameLive hdiv hlatch)).finishQuiet

theorem runReset_sameLive (h : SameLive s u) : SameLive (runReset s) (runReset u) :=
  (doResetCtrl_sameLive (h.inSeg .rst)).finishQuiet

theorem runBegin_sameLive (h : SameLive s u) (hdev : u.dev = s.dev) (hw : Config.TriggersActive s.cfg) :
    SameLive (runBegin s) (runBegin u) := by
  have haddr : Alike (address s.dev .write s.cfg.codes.bt (s.inSeg .bt))
      (address u.dev .write u.cfg.codes.bt (u.inSeg .bt)) := by
    rw [hdev, h.cfg]
    exact address_alike _ _ _ (h.inSeg .bt) hw
  exact haddr.finish

theorem runSend_sameLive (h : SameLive s u) (hval : u.val = s.val) (hw : Config.TriggersActive s.cfg) :
    SameLive (runSend s) (runSend u) := by
  have hsend : Alike (txByte s.val s.cfg.codes.sb (s.inSeg .sb)) (txByte u.val u.cfg.codes.sb (u.inSeg .sb)) := by
    rw [hval, h.cfg]
    exact txByte_alike _ _ (h.inSeg .sb) hw
  exact hsend.finish

theorem runStop_sameLive (h : SameLive s u) (hw : Config.TriggersActive s.cfg) :
    SameLive (runStop s) (runStop u) := by
  obtain ⟨hend, hlive⟩ := stopSeq_alike (h.inSeg .st) hw
  rw [runStop_code, runStop_code, hend, hlive.cfg]
  exact hlive.finish _

/-! ## WRBLK (R220) -/

theorem wbAddress_alike (h : SameLive s u) (hdev : u.dev = s.dev) (hw : Config.TriggersActive s.cfg) :
    Alike (wbAddress s) (wbAddress u) := by
  rw [wbAddress, wbAddress, hdev, h.cfg]
  exact address_alike _ _ _ (h.inSeg .wbAddr) hw

theorem wbRegByte_alike (h : SameLive s u) (hdev : u.dev = s.dev) (hreg : u.rega = s.rega)
    (hw : Config.TriggersActive s.cfg) : Alike (wbRegByte s) (wbRegByte u) := by
  have haddr := (wbAddress_alike h hdev hw).live
  have hreg' : (wbAddress u).2.rega = (wbAddress s).2.rega := by rw [wbAddress_rega, wbAddress_rega, hreg]
  rw [← wbAddress_cfg] at hw
  rw [wbRegByte, wbRegByte, hreg', haddr.cfg]
  exact txByte_alike _ _ (haddr.inSeg .wbReg) hw

theorem runWrblk_alike (h : SameLive s u) (hdev : u.dev = s.dev) (hreg : u.rega = s.rega) (hlen : u.len = s.len)
    (hw : Config.TriggersActive s.cfg) : Alike (runWrblk s) (runWrblk u) := by
  have haddr := wbAddress_alike h hdev hw
  have hbyte := wbRegByte_alike h hdev hreg hw
  have hlen' : (wbRegByte u).2.len = (wbRegByte s).2.len := by rw [wbRegByte_len, wbRegByte_len, hlen]
  rw [runWrblk_eq, runWrblk_eq, haddr.answer, hbyte.answer, hlen']
  split
  · exact ⟨rfl, haddr.live⟩
  split
  · exact ⟨rfl, hbyte.live⟩
  · rw [← wbRegByte_cfg] at hw
    exact writeLoop_alike _ (hbyte.live.startLoop .wbData) (by rw [State.startLoop_idx, State.startLoop_idx]) hw

/-! ## RDBLK (R230 to R233) -/

theorem rbAddress_alike (h : SameLive s u) (hdev : u.dev = s.dev) (hw : Config.TriggersActive s.cfg) :
    Alike (rbAddress s) (rbAddress u) := by
  have hstart : SameLive s.readStart u.readStart := h.dead rfl rfl
  rw [rbAddress_eq, rbAddress_eq, hdev, h.cfg]
  exact address_alike _ _ _ hstart hw

theorem rbRegByte_alike (h : SameLive s u) (hdev : u.dev = s.dev) (hreg : u.rega = s.rega)
    (hw : Config.TriggersActive s.cfg) : Alike (rbRegByte s) (rbRegByte u) := by
  have haddr := (rbAddress_alike h hdev hw).live
  have hreg' : (rbAddress u).2.rega = (rbAddress s).2.rega := by rw [rbAddress_rega, rbAddress_rega, hreg]
  rw [← rbAddress_cfg] at hw
  rw [rbRegByte, rbRegByte, hreg', haddr.cfg]
  exact txByte_alike _ _ (haddr.inSeg .rbReg) hw

theorem rbReaddress_alike (h : SameLive s u) (hdev : u.dev = s.dev) (hreg : u.rega = s.rega)
    (hw : Config.TriggersActive s.cfg) : Alike (rbReaddress s) (rbReaddress u) := by
  have hbyte := (rbRegByte_alike h hdev hreg hw).live
  have hdev' : (rbRegByte u).2.dev = (rbRegByte s).2.dev := by rw [rbRegByte_dev, rbRegByte_dev, hdev]
  rw [← rbRegByte_cfg] at hw
  rw [rbReaddress, rbReaddress, hdev', hbyte.cfg]
  exact address_alike _ _ _ (hbyte.inSeg .rbB) hw

/-- The phases before the stop leave the same failure in ERR. -/
theorem readPhases_sameLive (h : SameLive s u) (hdev : u.dev = s.dev) (hreg : u.rega = s.rega)
    (hlen : u.len = s.len) (hw : Config.TriggersActive s.cfg) :
    SameLive (readPhases s) (readPhases u) ∧ (readPhases u).err = (readPhases s).err := by
  have haddr := rbAddress_alike h hdev hw
  have hbyte := rbRegByte_alike h hdev hreg hw
  have hagain := rbReaddress_alike h hdev hreg hw
  have hlen' : (rbReaddress u).2.len = (rbReaddress s).2.len := by rw [rbReaddress_len, rbReaddress_len, hlen]
  rw [readPhases_eq, readPhases_eq, haddr.answer, hbyte.answer, hagain.answer, hlen']
  split
  · exact ⟨haddr.live.withErr _ _, rfl⟩
  split
  · exact ⟨hbyte.live.withErr _ _, rfl⟩
  split
  · exact ⟨hagain.live.withErr _ _, rfl⟩
  · rw [← rbReaddress_cfg] at hw
    refine readLoop_sameLive _ (hagain.live.startLoop .rbData) ?_ ?_ ?_ hw
    · rw [State.startLoop_idx, State.startLoop_idx]
    · rw [State.startLoop_len, State.startLoop_len, hlen']
    · rw [State.startLoop_err, State.startLoop_err, rbReaddress_err, rbReaddress_err]

theorem runRdblk_sameLive (h : SameLive s u) (hdev : u.dev = s.dev) (hreg : u.rega = s.rega)
    (hlen : u.len = s.len) (hw : Config.TriggersActive s.cfg) : SameLive (runRdblk s) (runRdblk u) := by
  obtain ⟨hphases, herr⟩ := readPhases_sameLive h hdev hreg hlen hw
  rw [← readPhases_cfg] at hw
  have hstop : Alike (rbStop s) (rbStop u) := stopSeq_alike (hphases.inSeg .rbStop) hw
  rw [runRdblk_eq, runRdblk_eq, rbStop_err, rbStop_err, herr]
  exact hstop.live.finish _

end

/-! ## Every command -/

/-- Two outcomes agree: next states that do, or the same fault or refusal. -/
inductive SameOutcome : Host.Outcome State Fault Refusal → Host.Outcome State Fault Refusal → Prop where
  | next {t v : State} (h : SameLive t v) : SameOutcome (.next t) (.next v)
  | fault (f : Fault) : SameOutcome (.fault f) (.fault f)
  | refused (r : Refusal) : SameOutcome (.refused r) (.refused r)

theorem Alike.wrblkOutcome {r q : BlockEnd × State} (h : Alike r q) :
    SameOutcome (wrblkOutcome r) (wrblkOutcome q) := by
  rw [Machine.wrblkOutcome, Machine.wrblkOutcome, h.answer]
  split
  · exact .next (h.live.finish _)
  · exact .fault _

theorem accepted_sameLive (i : Instr) (s d : State) : SameLive (accepted i s) (accepted i (withDead s d)) :=
  ⟨accepted i (withDead s d), by cases i <;> rfl⟩

theorem runCommand_sameOutcome (i : Instr) (s d : State) (hw : Config.TriggersActive s.cfg) :
    SameOutcome (runCommand i (accepted i s)) (runCommand i (accepted i (withDead s d))) := by
  have h := accepted_sameLive i s d
  rw [← accepted_cfg s i] at hw
  cases i with
  | configure khz pu => exact .next (runConfigure_sameLive h rfl rfl)
  | beginTrans dev => exact .next (runBegin_sameLive h rfl hw)
  | send val => exact .next (runSend_sameLive h rfl hw)
  | wrblk dev reg len => exact (runWrblk_alike h rfl rfl rfl hw).wrblkOutcome
  | rdblk dev reg len => exact .next (runRdblk_sameLive h rfl rfl rfl hw)
  | stop => exact .next (runStop_sameLive h hw)
  | reset => exact .next (runReset_sameLive h)

theorem exec_sameOutcome (i : Instr) (s d : State) (hw : Config.TriggersActive s.cfg) :
    SameOutcome (exec i s) (exec i (withDead s d)) := by
  have hph : (withDead s d).ph = s.ph := rfl
  rw [exec_eq, exec_eq, accept, accept, hph]
  split
  · exact .refused _
  split
  · exact .refused _
  · exact runCommand_sameOutcome i s d hw

/-- Settles O46: both runs of the command keep `SameLive`. -/
theorem deadRegisters : Obligations.DeadRegisters := by
  intro i s d hc
  have hout := exec_sameOutcome i s d (Config.triggersActive_of_wf hc)
  constructor
  · intro f hf
    rw [hf] at hout
    generalize exec i (withDead s d) = o at hout
    cases hout
    rfl
  · intro t ht
    rw [ht] at hout
    generalize exec i (withDead s d) = o at hout
    cases hout with
    | next h =>
      obtain ⟨e, rfl⟩ := h
      exact ⟨_, rfl, rfl, rfl, rfl, rfl, rfl, rfl, rfl, rfl, rfl, rfl, rfl, rfl, rfl, rfl, rfl⟩

end Sys2Proof.Machine
end

-- ==== The parameters, RESULT and the ends of commands ====
section
/-! PROOFS. What happens to the parameters, to RESULT and to the ends of commands among the port events, obligations O48, O50
and O54. `Underway` says that nothing does; every access keeps it, and a step or a command is accesses followed by at most
one `finish` (`Advance`). -/

namespace Sys2Proof.Machine

/-! ## No command ends -/

/-- From `s` to `t` no command ends: the new port events hold no `finish`, and the parameters and RESULT are unchanged. -/
structure Underway (s t : State) : Prop where
  cfg : t.cfg = s.cfg
  result : t.result = s.result
  resultValid : t.resultValid = s.resultValid
  events : ∃ evs, finishes evs = [] ∧ t.trace = evs ++ s.trace

/-- A change that makes no port event. -/
theorem Underway.of_silent {s t : State} (hc : t.cfg = s.cfg) (hr : t.result = s.result)
    (hv : t.resultValid = s.resultValid) (ht : t.trace = s.trace) : Underway s t :=
  ⟨hc, hr, hv, [], rfl, ht⟩

theorem Underway.refl (s : State) : Underway s s := .of_silent rfl rfl rfl rfl

theorem Underway.trans {s t u : State} (h : Underway s t) (k : Underway t u) : Underway s u := by
  obtain ⟨es, hes, htr⟩ := h.events
  obtain ⟨fs, hfs, hur⟩ := k.events
  refine ⟨k.cfg.trans h.cfg, k.result.trans h.result, k.resultValid.trans h.resultValid, fs ++ es, ?_, ?_⟩
  · rw [finishes_append, hfs, hes, List.nil_append]
  · rw [hur, htr, List.append_assoc]

theorem logEvent_underway (e : PortEvent) (s : State) (he : finishes [e] = []) : Underway s (logEvent e s) :=
  ⟨rfl, rfl, rfl, [e], he, rfl⟩

theorem accepted_underway (i : Instr) (s : State) : Underway s (accepted i s) :=
  ⟨accepted_cfg s i, accepted_result s i, accepted_resultValid s i, [.issued (encode i)], rfl, accepted_trace s i⟩

theorem enter_underway (p : Phase) (s : State) : Underway s (enter p s) :=
  have h := enter_busOnly p s
  .of_silent h.cfg h.result h.resultValid (enter_trace p s)

theorem periphTurn_underway (s : State) : Underway s (periphTurn s) := by
  have h := periphTurn_busOnly s
  obtain ⟨-, -, -, -, -, -, -, -, htrace⟩ := periphTurn_keeps s
  exact .of_silent h.cfg h.result h.resultValid htrace

section
variable (s : State)

/-! ## Changes between accesses -/

theorem inSeg_underway (g : Seg) : Underway s (s.inSeg g) := .of_silent rfl rfl rfl rfl

theorem startLoop_underway (g : Seg) : Underway s (s.startLoop g) := .of_silent rfl rfl rfl rfl

theorem nextAttempt_underway : Underway s s.nextAttempt := .of_silent rfl rfl rfl rfl

theorem nextByte_underway : Underway s s.nextByte := .of_silent rfl rfl rfl rfl

theorem readStart_underway : Underway s s.readStart := .of_silent rfl rfl rfl rfl

theorem goTo_underway (p : Phase) : Underway s (s.goTo p) := .of_silent rfl rfl rfl rfl

theorem withErr_underway (e : Byte) : Underway s { s with err := e } := .of_silent rfl rfl rfl rfl

/-! ## The accesses of the phases -/

theorem writeCtrl_underway (w : Byte) : Underway s (writeCtrl w s) := ⟨rfl, rfl, rfl, [.ioWrite .ctrl w], rfl, rfl⟩

theorem doTrigger_underway (p : Phase) (w : Byte) : Underway s (doTrigger p w s) :=
  ((enter_underway p s).trans (writeCtrl_underway _ w)).trans (.of_silent rfl rfl rfl rfl)

theorem doPoll_underway (p : Phase) : Underway s (doPoll p s).2 := by
  rw [doPoll_eq]
  exact (enter_underway p s).trans ⟨rfl, rfl, rfl, [.poll (enter p s).flag], rfl, rfl⟩

theorem readStat_underway : Underway s (readStat s).2 := by
  unfold readStat
  split
  · exact logEvent_underway _ s rfl
  · exact ⟨rfl, rfl, rfl, [_], rfl, rfl⟩

theorem doStatus_underway (p : Phase) : Underway s (doStatus p s) :=
  ((enter_underway p s).trans (readStat_underway _)).trans (.of_silent rfl rfl rfl rfl)

theorem doWriteData_underway (p : Phase) (v : Byte) : Underway s (doWriteData p v s) :=
  (enter_underway p s).trans ⟨rfl, rfl, rfl, [.ioWrite .data v], rfl, rfl⟩

theorem doFetch_underway {t : State} (h : doFetch s = some t) : Underway s t := by
  refine (enter_underway .tFetch s).trans ?_
  simp only [doFetch] at h
  split at h
  · cases h
    exact ⟨rfl, rfl, rfl, [_], rfl, rfl⟩
  · cases h

theorem doReceive_underway : Underway s (doReceive s) :=
  (enter_underway .rData s).trans ⟨rfl, rfl, rfl, [.ioRead .data (enter .rData s).data], rfl, rfl⟩

theorem doStore_underway : Underway s (doStore s) :=
  (enter_underway .rStore s).trans
    ⟨rfl, rfl, rfl, [.bufWrite (enter .rStore s).idx.toNat (enter .rStore s).rxb], rfl, rfl⟩

theorem doConfigDiv_underway : Underway s (doConfigDiv s) := by
  refine (enter_underway .cfgDiv s).trans ?_
  simp only [doConfigDiv]
  split
  · exact ⟨rfl, rfl, rfl, [_], rfl, rfl⟩
  · exact ⟨rfl, rfl, rfl, [_], rfl, rfl⟩

theorem doConfigPullup_underway : Underway s (doConfigPullup s) :=
  (enter_underway .cfgPu s).trans ⟨rfl, rfl, rfl, [.ioWrite .pullup (zextBit (enter .cfgPu s).puen)], rfl, rfl⟩

theorem doConfigEnable_underway : Underway s (doConfigEnable s) :=
  (enter_underway .cfgEn s).trans (writeCtrl_underway _ _)

theorem doResetCtrl_underway : Underway s (doResetCtrl s) :=
  (enter_underway .xCtrl s).trans (writeCtrl_underway _ _)

/-! ## The micro-sequences -/

theorem waitLoop_underway (p : Phase) (n : Nat) : Underway s (waitLoop p n s).2 := by
  induction n generalizing s with
  | zero => exact .refl s
  | succ n ih =>
    simp only [waitLoop]
    split
    · exact doPoll_underway s p
    · exact (doPoll_underway s p).trans (ih _)

theorem triggerWait_underway (p q : Phase) (w : Byte) : Underway s (wait p (doTrigger q w s)).2 :=
  (doTrigger_underway s q w).trans (waitLoop_underway _ p _)

theorem stopSeq_underway : Underway s (stopSeq s).2 := triggerWait_underway s .sWait .sTrig s.cfg.cw.stop

theorem txWait_underway (v : Byte) : Underway s (txWait v s).2 :=
  (doWriteData_underway s .tData v).trans (triggerWait_underway _ .tWait .tTrig _)

theorem txByte_underway (v : Byte) (c : TxCodes) : Underway s (txByte v c s).2 := by
  have hwait := txWait_underway s v
  cases he : (txWait v s).1 with
  | timeout => rw [txByte_timeout v c s he]; exact hwait
  | ok => rw [txByte_ok v c s he]; exact hwait.trans (doStatus_underway _ .tStat)

theorem addressAttempt_underway (dev : BitVec 7) (dir : Dir) (c : AddrCodes) :
    Underway s (addressAttempt dev dir c s).2 := by
  have hwait : Underway s (startWait s).2 := triggerWait_underway s .aStartWait .aStart s.cfg.cw.start
  have hstat : Underway s (startStat s) := hwait.trans (doStatus_underway _ .aStartStat)
  have haddr : Underway s (addrWait dev dir (startStat s)).2 :=
    hstat.trans ((doWriteData_underway _ .aAddrData _).trans (triggerWait_underway _ .aAddrWait .aAddrTrig _))
  cases he : (startWait s).1 with
  | timeout => rw [addressAttempt_startTimeout _ _ c s he]; exact hwait
  | ok =>
    cases hs : isStartStatus (startStat s).cfg.status (startStat s).st with
    | false => rw [addressAttempt_startStatus _ _ c s he hs]; exact hstat
    | true =>
      cases ha : (addrWait dev dir (startStat s)).1 with
      | timeout => rw [addressAttempt_addrTimeout _ _ c s he hs ha]; exact haddr
      | ok => rw [addressAttempt_addrOk _ _ c s he hs ha]; exact haddr.trans (doStatus_underway _ .aAddrStat)

theorem addressLoop_underway (dev : BitVec 7) (dir : Dir) (c : AddrCodes) (n : Nat) :
    Underway s (addressLoop dev dir c n s).2 := by
  induction n using Nat.strong_induction_on generalizing s with | _ n ih
  have hattempt := addressAttempt_underway s dev dir c
  cases h : (addressAttempt dev dir c s).1 with
  | some code => rw [addressLoop_failed _ _ c s n h]; exact hattempt
  | none =>
    by_cases hn : (addressAttempt dev dir c s).2.st = nackOf (addressAttempt dev dir c s).2.cfg.status dir ∧ n ≠ 0
    · obtain ⟨hnack, hpos⟩ := hn
      obtain ⟨m, rfl⟩ := Nat.exists_eq_succ_of_ne_zero hpos
      rw [addressLoop_retry _ _ c s m h hnack]
      exact (hattempt.trans (nextAttempt_underway _)).trans (ih m (Nat.lt_succ_self m) _)
    · rw [addressLoop_verdict _ _ c s n h hn]
      exact hattempt

theorem address_underway (dev : BitVec 7) (dir : Dir) (c : AddrCodes) : Underway s (address dev dir c s).2 :=
  have hstart : Underway s { s with dir := dir, retry := s.cfg.addrRetries } := .of_silent rfl rfl rfl rfl
  hstart.trans (addressLoop_underway _ dev dir c _)

/-! ## The block transfers -/

theorem writeLoop_underway (n : Nat) : Underway s (writeLoop n s).2 := by
  induction n generalizing s with
  | zero => exact .refl s
  | succ n ih =>
    cases hf : doFetch s with
    | none => rw [writeLoop_noFetch n hf]; exact .refl s
    | some t =>
      have hsend : Underway s (sendFetched t).2 := (doFetch_underway s hf).trans (txByte_underway t _ _)
      rw [writeLoop_fetch n hf]
      split
      · exact hsend
      · exact (hsend.trans (nextByte_underway _)).trans (ih _)

theorem runWrblk_underway : Underway s (runWrblk s).2 := by
  have haddr : Underway s (wbAddress s).2 := (inSeg_underway s .wbAddr).trans (address_underway _ _ _ _)
  have hbyte : Underway s (wbRegByte s).2 := haddr.trans ((inSeg_underway _ .wbReg).trans (txByte_underway _ _ _))
  rw [runWrblk_eq]
  split
  · exact haddr
  split
  · exact hbyte
  · exact hbyte.trans ((startLoop_underway _ .wbData).trans (writeLoop_underway _ _))

theorem readLoop_underway (n : Nat) : Underway s (readLoop n s) := by
  induction n generalizing s with
  | zero => exact .refl s
  | succ n ih =>
    have hwait : Underway s (receiveWait s).2 := triggerWait_underway s .rWait .rTrig _
    have hstat : Underway s (receiveStat s) := hwait.trans (doStatus_underway _ .rStat)
    cases he : (receiveWait s).1 with
    | timeout => rw [readLoop_timeout s n he]; exact hwait.trans (withErr_underway _ _)
    | ok =>
      rw [readLoop_ok s n he]
      split
      · exact hstat.trans (((doReceive_underway _).trans (doStore_underway _)).trans (ih _))
      · exact hstat.trans (withErr_underway _ _)

theorem readPhases_underway : Underway s (readPhases s) := by
  have haddr : Underway s (rbAddress s).2 :=
    (readStart_underway s).trans (address_underway s.readStart _ _ _)
  have hbyte : Underway s (rbRegByte s).2 := haddr.trans ((inSeg_underway _ .rbReg).trans (txByte_underway _ _ _))
  have hagain : Underway s (rbReaddress s).2 :=
    hbyte.trans ((inSeg_underway _ .rbB).trans (address_underway _ _ _ _))
  rw [readPhases_eq]
  split
  · exact haddr.trans (withErr_underway _ _)
  split
  · exact hbyte.trans (withErr_underway _ _)
  split
  · exact hagain.trans (withErr_underway _ _)
  · exact hagain.trans ((startLoop_underway _ .rbData).trans (readLoop_underway _ _))

theorem rbStop_underway : Underway s (rbStop s).2 :=
  (readPhases_underway s).trans ((inSeg_underway _ .rbStop).trans (stopSeq_underway _))

end

/-! ## The end of a command -/

/-- After accesses that end no command, `t` ends a command with a status (R14, R46). -/
def EndsWithStatus (s t : State) : Prop := ∃ c v, Underway s v ∧ t = finish c v

/-- After accesses that end no command, `t` ends a command that returns no status (R14). -/
def EndsQuietly (s t : State) : Prop := ∃ v, Underway s v ∧ t = finishQuiet v

/-- Does the command return a status (R46)? -/
def returnsStatus : Instr → Bool
  | .configure _ _ => false
  | .reset => false
  | _ => true

theorem runCommand_endsWithStatus {i : Instr} {s t : State} (hi : returnsStatus i = true)
    (h : runCommand i s = .next t) : EndsWithStatus s t := by
  cases i with
  | configure khz pu => cases hi
  | reset => cases hi
  | beginTrans dev =>
    cases h
    exact ⟨_, _, (inSeg_underway s .bt).trans (address_underway _ _ _ _), rfl⟩
  | send val =>
    cases h
    exact ⟨_, _, (inSeg_underway s .sb).trans (txByte_underway _ _ _), rfl⟩
  | wrblk dev reg len =>
    obtain ⟨c, -, rfl⟩ := wrblkOutcome_next h
    exact ⟨c, _, runWrblk_underway s, rfl⟩
  | rdblk dev reg len =>
    cases h
    exact ⟨_, _, rbStop_underway s, rfl⟩
  | stop =>
    cases h
    obtain ⟨c, hc⟩ := runStop_eq s
    exact ⟨c, _, (inSeg_underway s .st).trans (stopSeq_underway _), hc⟩

theorem runCommand_endsQuietly {i : Instr} {s t : State} (hi : returnsStatus i = false)
    (h : runCommand i s = .next t) : EndsQuietly s t := by
  cases i with
  | configure khz pu =>
    cases h
    exact ⟨_, (((inSeg_underway s .cfg).trans (doConfigDiv_underway _)).trans (doConfigPullup_underway _)).trans
      (doConfigEnable_underway _), rfl⟩
  | reset =>
    cases h
    exact ⟨_, (inSeg_underway s .rst).trans (doResetCtrl_underway _), rfl⟩
  | _ => cases hi

theorem exec_endsWithStatus {i : Instr} {s t : State} (hi : returnsStatus i = true) (h : exec i s = .next t) :
    EndsWithStatus s t := by
  obtain ⟨c, v, hv, ht⟩ := runCommand_endsWithStatus hi (exec_next h)
  exact ⟨c, v, (accepted_underway i s).trans hv, ht⟩

theorem exec_endsQuietly {i : Instr} {s t : State} (hi : returnsStatus i = false) (h : exec i s = .next t) :
    EndsQuietly s t := by
  obtain ⟨v, hv, ht⟩ := runCommand_endsQuietly hi (exec_next h)
  exact ⟨v, (accepted_underway i s).trans hv, ht⟩

theorem EndsWithStatus.events {s t : State} (h : EndsWithStatus s t) :
    ∃ evs, finishes evs = [] ∧ t.trace = .finished (some t.result) :: (evs ++ s.trace) ∧ t.resultValid = true := by
  obtain ⟨c, v, hv, rfl⟩ := h
  obtain ⟨evs, hnone, htrace⟩ := hv.events
  exact ⟨evs, hnone, congrArg (PortEvent.finished (some c) :: ·) htrace, rfl⟩

theorem EndsQuietly.events {s t : State} (h : EndsQuietly s t) :
    ∃ evs, finishes evs = [] ∧ t.trace = .finished none :: (evs ++ s.trace) ∧ t.result = s.result ∧
      t.resultValid = s.resultValid := by
  obtain ⟨v, hv, rfl⟩ := h
  obtain ⟨evs, hnone, htrace⟩ := hv.events
  exact ⟨evs, hnone, congrArg (PortEvent.finished none :: ·) htrace, hv.result, hv.resultValid⟩

/-- Settles O50: a command that returns a status ends with `finish(code)`, the other two with `finish()`. -/
theorem resultWrittenByStatusCommands : Obligations.ResultWrittenByStatusCommands := by
  intro i s t h
  cases i with
  | configure khz pu => exact (exec_endsQuietly rfl h).events
  | reset => exact (exec_endsQuietly rfl h).events
  | beginTrans dev => exact (exec_endsWithStatus rfl h).events
  | send val => exact (exec_endsWithStatus rfl h).events
  | wrblk dev reg len => exact (exec_endsWithStatus rfl h).events
  | rdblk dev reg len => exact (exec_endsWithStatus rfl h).events
  | stop => exact (exec_endsWithStatus rfl h).events

/-! ## One step ends at most one command -/

/-- From `s` to `t` at most one command ends, at the end. -/
inductive Advance (s t : State) : Prop where
  | underway (h : Underway s t) : Advance s t
  | status (h : EndsWithStatus s t) : Advance s t
  | quiet (h : EndsQuietly s t) : Advance s t

theorem Underway.advance {s t u : State} (h : Underway s t) (k : Advance t u) : Advance s u := by
  cases k with
  | underway k => exact .underway (h.trans k)
  | status k =>
    obtain ⟨c, v, hv, hu⟩ := k
    exact .status ⟨c, v, h.trans hv, hu⟩
  | quiet k =>
    obtain ⟨v, hv, hu⟩ := k
    exact .quiet ⟨v, h.trans hv, hu⟩

theorem finish_advance (c : Byte) (s : State) : Advance s (finish c s) := .status ⟨c, s, .refl s, rfl⟩

theorem finishQuiet_advance (s : State) : Advance s (finishQuiet s) := .quiet ⟨s, .refl s, rfl⟩

/-- Where the outcome is a next state, at most one command ends on the way to it. -/
inductive Advances (s : State) : Host.Outcome State Fault Refusal → Prop where
  | next {t : State} (h : Advance s t) : Advances s (.next t)
  | fault (f : Fault) : Advances s (.fault f)
  | refused (r : Refusal) : Advances s (.refused r)

theorem Advances.advance {s t : State} (h : Advances s (.next t)) : Advance s t := by
  cases h with
  | next h => exact h

theorem Underway.advances {s t : State} {o : Host.Outcome State Fault Refusal} (h : Underway s t)
    (k : Advances t o) : Advances s o := by
  cases k with
  | next k => exact .next (h.advance k)
  | fault f => exact .fault f
  | refused r => exact .refused r

theorem Underway.advances_next {s t : State} (h : Underway s t) : Advances s (.next t) := .next (.underway h)

section
variable (s : State)

/-! ### Where SEQ goes next -/

theorem toFin_underway : Underway s (toFin s) := .of_silent rfl rfl rfl rfl

theorem toAddress_underway (g : Seg) (dir : Dir) : Underway s (toAddress g dir s) := .of_silent rfl rfl rfl rfl

theorem toReceive_underway : Underway s (toReceive s) := by
  unfold toReceive
  split
  · exact toFin_underway s
  · exact goTo_underway s .rTrig

theorem toData_advance : Advance s (toData s) := by
  unfold toData
  split
  · exact finish_advance 0 s
  · exact .underway (goTo_underway s .tFetch)

theorem noPosition_advances : Advances s (noPosition s) := .fault _

theorem afterAddress_advances (r : Byte) : Advances s (afterAddress r s) := by
  unfold afterAddress
  split
  · exact .next (finish_advance r s)
  · refine .next ?_
    split
    · exact finish_advance r s
    · exact .underway (.of_silent rfl rfl rfl rfl)
  · refine .next (.underway ?_)
    split
    · exact (withErr_underway s r).trans (toFin_underway _)
    · exact .of_silent rfl rfl rfl rfl
  · refine .next (.underway ?_)
    split
    · exact (withErr_underway s r).trans (toFin_underway _)
    · exact (startLoop_underway s .rbData).trans (toReceive_underway _)
  · exact noPosition_advances s

theorem afterTxByte_advances (r : Byte) : Advances s (afterTxByte r s) := by
  unfold afterTxByte
  split
  · exact .next (finish_advance r s)
  · refine .next ?_
    split
    · exact finish_advance r s
    · exact (startLoop_underway s .wbData).advance (toData_advance _)
  · refine .next ?_
    split
    · exact finish_advance r s
    · exact (nextByte_underway s).advance (toData_advance _)
  · refine .next (.underway ?_)
    split
    · exact (withErr_underway s r).trans (toFin_underway _)
    · exact toAddress_underway s .rbB .read
  · exact noPosition_advances s

theorem afterStop_advances (e : WaitEnd) : Advances s (afterStop e s) := by
  unfold afterStop
  split
  · exact .next (finish_advance _ s)
  · exact .next (finish_advance _ s)
  · exact noPosition_advances s

theorem afterWaitOk_advances : Advances s (afterWaitOk s) := by
  unfold afterWaitOk
  split
  · exact (goTo_underway s .aStartStat).advances_next
  · exact (goTo_underway s .aAddrStat).advances_next
  · exact (goTo_underway s .tStat).advances_next
  · exact (goTo_underway s .rStat).advances_next
  · exact afterStop_advances s .ok
  · exact noPosition_advances s

theorem afterWaitTimeout_advances : Advances s (afterWaitTimeout s) := by
  unfold afterWaitTimeout
  split
  · split
    · exact afterAddress_advances s _
    · exact noPosition_advances s
  · split
    · exact afterAddress_advances s _
    · exact noPosition_advances s
  · split
    · exact afterTxByte_advances s _
    · exact noPosition_advances s
  · exact ((withErr_underway s _).trans (toFin_underway _)).advances_next
  · exact afterStop_advances s .timeout
  · exact noPosition_advances s

/-! ### One access of SEQ -/

theorem pollStep_advances (p : Phase) : Advances s (pollStep p s) := by
  have hpoll := doPoll_underway s p
  unfold pollStep
  simp only
  split
  · exact afterWaitTimeout_advances s
  split
  · exact hpoll.advances (afterWaitOk_advances _)
  split
  · exact hpoll.advances (afterWaitTimeout_advances _)
  · exact hpoll.advances_next

theorem startStatStep_advances : Advances s (startStatStep s) := by
  refine (doStatus_underway s .aStartStat).advances ?_
  unfold startStatStep
  simp only
  split
  · split
    · exact afterAddress_advances _ _
    · exact (goTo_underway _ .aAddrData).advances_next
  · exact noPosition_advances _

theorem addrStatStep_advances : Advances s (addrStatStep s) := by
  refine (doStatus_underway s .aAddrStat).advances ?_
  unfold addrStatStep
  simp only
  split
  · split
    · exact ((nextAttempt_underway _).trans (goTo_underway _ .aStart)).advances_next
    split
    · exact afterAddress_advances _ _
    · exact afterAddress_advances _ _
  · exact noPosition_advances _

theorem txDataStep_advances : Advances s (txDataStep s) := by
  unfold txDataStep
  split
  · exact ((doWriteData_underway s .tData _).trans (goTo_underway _ .tTrig)).advances_next
  · exact noPosition_advances s

theorem txStatStep_advances : Advances s (txStatStep s) := by
  refine (doStatus_underway s .tStat).advances ?_
  unfold txStatStep
  simp only
  split
  · split
    · exact afterTxByte_advances _ _
    · exact afterTxByte_advances _ _
  · exact noPosition_advances _

theorem fetchStep_advances : Advances s (fetchStep s) := by
  unfold fetchStep
  split
  · rename_i t hf
    exact ((doFetch_underway s hf).trans (goTo_underway t .tData)).advances_next
  · exact .fault _

theorem rxStatStep_advances : Advances s (rxStatStep s) := by
  rw [rxStatStep_eq]
  refine ((doStatus_underway s .rStat).trans ?_).advances_next
  split
  · exact goTo_underway _ .rData
  · exact (withErr_underway _ _).trans (toFin_underway _)

/-- One access of SEQ ends at most one command, and then at its end. -/
theorem seqStep_advances : Advances s (seqStep s) := by
  unfold seqStep
  split
  · exact (periphTurn_underway s).advances_next
  · exact ((doConfigDiv_underway s).trans (goTo_underway _ .cfgPu)).advances_next
  · exact ((doConfigPullup_underway s).trans (goTo_underway _ .cfgEn)).advances_next
  · exact (doConfigEnable_underway s).advances (.next (finishQuiet_advance _))
  · exact ((doTrigger_underway s .aStart _).trans (goTo_underway _ .aStartWait)).advances_next
  · exact pollStep_advances s .aStartWait
  · exact startStatStep_advances s
  · exact ((doWriteData_underway s .aAddrData _).trans (goTo_underway _ .aAddrTrig)).advances_next
  · exact ((doTrigger_underway s .aAddrTrig _).trans (goTo_underway _ .aAddrWait)).advances_next
  · exact pollStep_advances s .aAddrWait
  · exact addrStatStep_advances s
  · exact fetchStep_advances s
  · exact txDataStep_advances s
  · exact ((doTrigger_underway s .tTrig _).trans (goTo_underway _ .tWait)).advances_next
  · exact pollStep_advances s .tWait
  · exact txStatStep_advances s
  · exact ((doTrigger_underway s .rTrig _).trans (goTo_underway _ .rWait)).advances_next
  · exact pollStep_advances s .rWait
  · exact rxStatStep_advances s
  · exact ((doReceive_underway s).trans (goTo_underway _ .rStore)).advances_next
  · exact ((doStore_underway s).trans (toReceive_underway _)).advances_next
  · exact ((doTrigger_underway s .sTrig _).trans (goTo_underway _ .sWait)).advances_next
  · exact pollStep_advances s .sWait
  · exact (doResetCtrl_underway s).advances (.next (finishQuiet_advance _))

/-! ### HOST's moves and the step -/

theorem exec_advances (i : Instr) : Advances s (exec i s) := by
  cases h : exec i s with
  | next t =>
    cases hi : returnsStatus i with
    | true => exact .next (.status (exec_endsWithStatus hi h))
    | false => exact .next (.quiet (exec_endsQuietly hi h))
  | fault f => exact .fault f
  | refused r => exact .refused r

theorem startCommand_underway (i : Instr) : Underway s (startCommand i s) := by
  cases i <;> exact .of_silent rfl rfl rfl rfl

theorem presentCommand_advances (i : Instr) : Advances s (presentCommand i s) := by
  rw [presentCommand, accept]
  split
  · exact .refused _
  split
  · exact .refused _
  · exact ((accepted_underway i s).trans (startCommand_underway _ i)).advances_next

theorem hostCommand_advances (w : CmdWord) (k : Instr → State → Host.Outcome State Fault Refusal)
    (hk : ∀ i, Advances s (k i s)) : Advances s (hostCommand w k s) := by
  unfold hostCommand
  split
  · exact .refused _
  split
  · exact .refused _
  · exact hk _

theorem hostStep_advances (e : HostEvent) : Advances s (hostStep e s) := by
  cases e with
  | wait => exact seqStep_advances s
  | issue w => exact hostCommand_advances s w exec (exec_advances s)
  | present w => exact hostCommand_advances s w presentCommand (presentCommand_advances s)
  | bufWrite i v =>
    simp only [hostStep, hostBufWrite]
    split
    · exact .refused _
    · exact Underway.advances_next ⟨rfl, rfl, rfl, [.hostBufWrite i.toNat v], rfl, rfl⟩
  | bufRead i =>
    simp only [hostStep, hostBufRead]
    split
    · exact .refused _
    split
    · exact (logEvent_underway _ s rfl).advances_next
    · exact .fault _
  | resultRead =>
    simp only [hostStep, hostResultRead]
    split
    · exact .refused _
    split
    · exact (logEvent_underway _ s rfl).advances_next
    · exact .fault _

theorem step_advances : Advances s (step s) := by
  unfold step
  split
  · exact seqStep_advances s
  · rename_i e rest _
    have htake : Underway s { s with host := rest } := .of_silent rfl rfl rfl rfl
    exact htake.advances (hostStep_advances _ e)

end

theorem step_advance {s t : State} (h : step s = .next t) : Advance s t := (h ▸ step_advances s).advance

theorem Advance.cfg {s t : State} (h : Advance s t) : t.cfg = s.cfg := by
  cases h with
  | underway h => exact h.cfg
  | status h =>
    obtain ⟨c, v, hv, rfl⟩ := h
    exact hv.cfg
  | quiet h =>
    obtain ⟨v, hv, rfl⟩ := h
    exact hv.cfg

/-- Settles O48: no part of a step touches the parameters. -/
theorem configFixed : Obligations.ConfigFixed := fun _ _ h => (step_advance h).cfg

/-- Events among which no command ends keep what the port events tell of RESULT. -/
theorem Underway.resultHistory {s t : State} (h : Underway s t) (hs : s.ResultHistory) : t.ResultHistory := by
  obtain ⟨evs, hnone, htrace⟩ := h.events
  rw [State.ResultHistory, htrace, lastStatus_append_of_no_finish evs s.trace hnone, h.resultValid, h.result]
  exact hs

theorem finish_resultHistory (c : Byte) (s : State) : (finish c s).ResultHistory :=
  ⟨rfl, fun _ h => Option.some.inj h⟩

/-- Settles O54: only `finish(code)` changes RESULT, and it sets RESULT to its code. -/
theorem resultHistoryStep : Obligations.ResultHistoryStep := by
  intro s t hs h
  cases step_advance h with
  | underway h => exact h.resultHistory hs
  | status h =>
    obtain ⟨c, v, -, rfl⟩ := h
    exact finish_resultHistory c v
  | quiet h =>
    obtain ⟨v, hv, rfl⟩ := h
    exact hv.resultHistory hs

end Sys2Proof.Machine
end

-- ==== Reset, the host's accesses, and no missing position ====
section
/-! PROOFS. The state after reset, HOST's read of RESULT and its write of the buffer, and that no state of the invariant
stops for want of a position, obligations O51, O53, O55, O56, O57 and O59. In a position of R45 every access but a fetch
answers a next state (`seqStep_answers`); a fetch can fault for want of a value only. -/

namespace Sys2Proof.Machine

/-! ## Reset (R52, R320) -/

/-- Settles O51: `State.reset` is written out by R52's table. -/
theorem resetState : Obligations.ResetState :=
  ⟨rfl, rfl, rfl, rfl, rfl, rfl, by decide, Memory.read_nil, rfl, rfl⟩

/-- Settles O57: an idle block with FLAG = 0 and an empty BUF. -/
theorem invReset : Obligations.InvReset where
  config := by decide
  buffer := reset_buf_wf
  flagEnabled := nofun
  flagStat := nofun
  place := rfl
  opcode := fun h => absurd rfl h

/-- Settles O53: after reset there are no port events. -/
theorem resultHistoryReset : Obligations.ResultHistoryReset := ⟨⟨rfl, nofun⟩, rfl⟩

/-! ## HOST reads RESULT (R46, R334) -/

theorem step_resultRead {s : State} {rest : List HostEvent} (h : s.host = .resultRead :: rest) :
    step s = hostResultRead { s with host := rest } := by
  simp only [step, h, hostStep]

theorem step_resultRead_valid {s : State} {rest : List HostEvent} (h : s.host = .resultRead :: rest)
    (hp : s.ph = .idle) (hv : s.resultValid = true) :
    step s = .next { s with host := rest, trace := .hostResult s.result :: s.trace } := by
  simp [step_resultRead h, hostResultRead, hp, hv, logEvent]

theorem step_resultRead_early {s : State} {rest : List HostEvent} (h : s.host = .resultRead :: rest)
    (hp : s.ph = .idle) (hv : s.resultValid = false) : step s = .fault .resultNoValue := by
  simp [step_resultRead h, hostResultRead, hp, hv]

theorem step_resultRead_busy {s : State} {rest : List HostEvent} (h : s.host = .resultRead :: rest)
    (hp : s.ph ≠ .idle) : step s = .refused .hostNotIdle := by
  simp [step_resultRead h, hostResultRead, hp]

/-- Settles O55: the three cases of the read, and `State.ResultHistory` for what the port events tell. -/
theorem resultRead : Obligations.ResultRead := by
  intro s rest h
  refine ⟨step_resultRead_valid h, step_resultRead_early h, step_resultRead_busy h, fun hs => ?_⟩
  obtain ⟨hvalid, hresult⟩ := hs
  constructor
  · intro c hp hc
    rw [step_resultRead_valid h hp (by rw [hvalid, hc]; rfl), hresult c hc]
  · constructor
    · intro hfault
      by_cases hp : s.ph = .idle
      · cases hl : lastStatus s.trace with
        | none => exact ⟨hp, rfl⟩
        | some c =>
          rw [step_resultRead_valid h hp (by rw [hvalid, hl]; rfl)] at hfault
          cases hfault
      · rw [step_resultRead_busy h hp] at hfault
        cases hfault
    · rintro ⟨hp, hl⟩
      exact step_resultRead_early h hp (by rw [hvalid, hl]; rfl)

/-! ## HOST writes its buffer (R48, R331) -/

/-- Settles O56, by the laws of BUF. -/
theorem hostBufferWrite : Obligations.HostBufferWrite := by
  intro i v s rest h
  have hstep : step s = hostBufWrite i v { s with host := rest } := by simp only [step, h, hostStep]
  constructor
  · intro hp
    refine ⟨logEvent (.hostBufWrite i.toNat v) { s with host := rest, buf := Memory.write s.buf i.toNat v }, ?_, ?_, ?_,
      rfl⟩
    · simp [hstep, hostBufWrite, hp]
    · exact Memory.read_write_same s.buf i.toNat v
    · exact fun a ha => Memory.read_write_other s.buf i.toNat a v ha
  · intro hp
    simp [hstep, hostBufWrite, hp]

/-! ## Every position has an access (R45) -/

/-- The segments that call ADDRESS (R200, R220, R230). -/
def AddressSeg (g : Seg) : Prop := g = .bt ∨ g = .wbAddr ∨ g = .rbA ∨ g = .rbB

/-- The segments that call TXBYTE (R210, R220, R230). -/
def SendSeg (g : Seg) : Prop := g = .sb ∨ g = .wbReg ∨ g = .rbReg ∨ g = .wbData

/-- The segments that call STOPSEQ (R232, R250). -/
def StopSeg (g : Seg) : Prop := g = .st ∨ g = .rbStop

/-- The wait phases with the segments that have them (R45). -/
inductive WaitPlace : Phase → Seg → Prop where
  | start {g : Seg} (h : AddressSeg g) : WaitPlace .aStartWait g
  | addr {g : Seg} (h : AddressSeg g) : WaitPlace .aAddrWait g
  | send {g : Seg} (h : SendSeg g) : WaitPlace .tWait g
  | receive (g : Seg) : WaitPlace .rWait g
  | stop {g : Seg} (h : StopSeg g) : WaitPlace .sWait g

theorem AddressSeg.codes {g : Seg} (h : AddressSeg g) (k : ResultCodes) : ∃ c, addrCodesOf k g = some c := by
  rcases h with rfl | rfl | rfl | rfl <;> exact ⟨_, rfl⟩

theorem SendSeg.codes {g : Seg} (h : SendSeg g) (k : ResultCodes) : ∃ c, txCodesOf k g = some c := by
  rcases h with rfl | rfl | rfl | rfl <;> exact ⟨_, rfl⟩

/-- The outcome is a next state. -/
def Answers (o : Host.Outcome State Fault Refusal) : Prop := ∃ t, o = .next t

theorem answers_next (t : State) : Answers (.next t) := ⟨t, rfl⟩

section
variable {s : State}

theorem addressing_seg (h : State.position.addressing s = true) : AddressSeg s.seg := by
  simp only [State.position.addressing, Bool.and_eq_true, Bool.or_eq_true, beq_iff_eq, or_assoc] at h
  obtain ⟨⟨hseg, -⟩, -⟩ := h
  exact hseg

theorem sending_seg (h : State.position.sending s = true) : SendSeg s.seg := by
  simp only [State.position.sending, Bool.and_eq_true, Bool.or_eq_true, beq_iff_eq, or_assoc] at h
  exact h.imp_right (Or.imp_right (Or.imp_right And.left))

theorem stopping_seg (h : State.position.stopping s = true) : StopSeg s.seg := by
  simp only [State.position.stopping, Bool.or_eq_true, beq_iff_eq] at h
  exact h

theorem SendSeg.byte (h : SendSeg s.seg) : ∃ v, txByteOf s = some v := by
  unfold txByteOf
  rcases h with h | h | h | h <;> exact ⟨_, by rw [h]⟩

theorem afterAddress_answers (h : AddressSeg s.seg) (r : Byte) : Answers (afterAddress r s) := by
  rcases h with h | h | h | h
  · exact ⟨_, afterAddress_bt r h⟩
  · exact ⟨_, afterAddress_wbAddr r h⟩
  · exact ⟨_, afterAddress_rbA r h⟩
  · exact ⟨_, afterAddress_rbB r h⟩

theorem afterTxByte_answers (h : SendSeg s.seg) (r : Byte) : Answers (afterTxByte r s) := by
  rcases h with h | h | h | h
  · exact ⟨_, afterTxByte_sb r h⟩
  · exact ⟨_, afterTxByte_wbReg r h⟩
  · exact ⟨_, afterTxByte_rbReg r h⟩
  · exact ⟨_, afterTxByte_wbData r h⟩

theorem afterStop_answers (h : StopSeg s.seg) (e : WaitEnd) : Answers (afterStop e s) := by
  rcases h with h | h
  · exact ⟨_, afterStop_st e h⟩
  · exact ⟨_, afterStop_rbStop e h⟩

theorem afterWaitOk_answers (h : WaitPlace s.ph s.seg) : Answers (afterWaitOk s) := by
  generalize hp : s.ph = p at h
  generalize hg : s.seg = g at h
  cases h with
  | start h => exact ⟨_, by rw [afterWaitOk, hp]⟩
  | addr h => exact ⟨_, by rw [afterWaitOk, hp]⟩
  | send h => exact ⟨_, by rw [afterWaitOk, hp]⟩
  | receive => exact ⟨_, by rw [afterWaitOk, hp]⟩
  | stop h =>
    rw [afterWaitOk, hp]
    exact afterStop_answers (hg ▸ h) .ok

theorem afterWaitTimeout_answers (h : WaitPlace s.ph s.seg) : Answers (afterWaitTimeout s) := by
  generalize hp : s.ph = p at h
  generalize hg : s.seg = g at h
  subst hg
  cases h with
  | start h =>
    obtain ⟨c, hc⟩ := h.codes s.cfg.codes
    simp only [afterWaitTimeout, hp, hc]
    exact afterAddress_answers h _
  | addr h =>
    obtain ⟨c, hc⟩ := h.codes s.cfg.codes
    simp only [afterWaitTimeout, hp, hc]
    exact afterAddress_answers h _
  | send h =>
    obtain ⟨c, hc⟩ := h.codes s.cfg.codes
    simp only [afterWaitTimeout, hp, hc]
    exact afterTxByte_answers h _
  | receive =>
    rw [afterWaitTimeout, hp]
    exact answers_next _
  | stop h =>
    rw [afterWaitTimeout, hp]
    exact afterStop_answers h .timeout

theorem pollStep_answers {p : Phase} (hp : s.ph = p) (h : WaitPlace p s.seg) : Answers (pollStep p s) := by
  have hpoll : WaitPlace (doPoll p s).2.ph (doPoll p s).2.seg := by rwa [doPoll_ph, (doPoll_busOnly p s).seg]
  unfold pollStep
  simp only
  split
  · exact afterWaitTimeout_answers (hp ▸ h)
  split
  · exact afterWaitOk_answers hpoll
  split
  · exact afterWaitTimeout_answers hpoll
  · exact answers_next _

theorem startStatStep_answers (h : AddressSeg s.seg) : Answers (startStatStep s) := by
  obtain ⟨c, hc⟩ := h.codes s.cfg.codes
  rw [startStatStep_eq c s hc]
  split
  · exact answers_next _
  · rw [← (doStatus_busOnly .aStartStat s).seg] at h
    exact afterAddress_answers h _

theorem addrStatStep_answers (h : AddressSeg s.seg) : Answers (addrStatStep s) := by
  obtain ⟨c, hc⟩ := h.codes s.cfg.codes
  rw [← (doStatus_busOnly .aAddrStat s).seg] at h
  rw [addrStatStep_eq s.dir c s rfl hc, addrVerdict]
  split
  · exact answers_next _
  split
  · exact afterAddress_answers h _
  · exact afterAddress_answers h _

theorem txDataStep_answers (h : SendSeg s.seg) : Answers (txDataStep s) := by
  obtain ⟨v, hv⟩ := h.byte
  simp only [txDataStep, hv]
  exact answers_next _

theorem txStatStep_answers (h : SendSeg s.seg) : Answers (txStatStep s) := by
  obtain ⟨c, hc⟩ := h.codes s.cfg.codes
  rw [← (doStatus_busOnly .tStat s).seg] at h
  rw [txStatStep_eq c s hc]
  exact afterTxByte_answers h _

/-- In a position SEQ's access answers a next state, or faults at a byte of BUF that holds no value. -/
theorem seqStep_answers (h : s.position = true) :
    Answers (seqStep s) ∨ ∃ k, seqStep s = .fault (.bufNoValue k) := by
  by_cases hfetch : s.ph = .tFetch
  · simp only [seqStep, hfetch, fetchStep]
    split
    · exact .inl (answers_next _)
    · exact .inr ⟨_, rfl⟩
  refine .inl ?_
  cases hp : s.ph with
  | tFetch => exact absurd hp hfetch
  | aStartWait =>
    simp only [State.position, hp, Bool.and_eq_true] at h
    exact seqStep_of_isWait .aStartWait s hp ▸ pollStep_answers hp (.start (addressing_seg h.1))
  | aAddrWait =>
    simp only [State.position, hp, Bool.and_eq_true] at h
    exact seqStep_of_isWait .aAddrWait s hp ▸ pollStep_answers hp (.addr (addressing_seg h.1))
  | tWait =>
    simp only [State.position, hp, Bool.and_eq_true] at h
    exact seqStep_of_isWait .tWait s hp ▸ pollStep_answers hp (.send (sending_seg h.1))
  | rWait => exact seqStep_of_isWait .rWait s hp ▸ pollStep_answers hp (.receive s.seg)
  | sWait =>
    simp only [State.position, hp, Bool.and_eq_true] at h
    exact seqStep_of_isWait .sWait s hp ▸ pollStep_answers hp (.stop (stopping_seg h.1))
  | aStartStat =>
    simp only [State.position, hp] at h
    rw [seqStep, hp]
    exact startStatStep_answers (addressing_seg h)
  | aAddrStat =>
    simp only [State.position, hp] at h
    rw [seqStep, hp]
    exact addrStatStep_answers (addressing_seg h)
  | tData =>
    simp only [State.position, hp] at h
    rw [seqStep, hp]
    exact txDataStep_answers (sending_seg h)
  | tStat =>
    simp only [State.position, hp] at h
    rw [seqStep, hp]
    exact txStatStep_answers (sending_seg h)
  | rStat =>
    rw [seqStep, hp]
    exact ⟨_, rxStatStep_eq s⟩
  | _ =>
    rw [seqStep, hp]
    exact answers_next _

end

/-- The outcome is no stop for want of a position. -/
def HasPosition (o : Host.Outcome State Fault Refusal) : Prop := ∀ ph seg, o ≠ .fault (.noPosition ph seg)

theorem seqStep_hasPosition {s : State} (h : s.position = true) : HasPosition (seqStep s) := by
  intro ph seg hfault
  rcases seqStep_answers h with ⟨t, ht⟩ | ⟨k, hk⟩
  · rw [ht] at hfault; cases hfault
  · rw [hk] at hfault; cases hfault

/-- A whole command faults at a byte of BUF only (O32). -/
theorem exec_hasPosition (i : Instr) (s : State) : HasPosition (exec i s) := by
  intro ph seg hfault
  obtain ⟨-, -, -, k, -, hk, -⟩ := execFaults i s _ hfault
  cases hk

theorem presentCommand_hasPosition (i : Instr) (s : State) : HasPosition (presentCommand i s) := by
  rw [presentCommand, accept]
  split
  · exact nofun
  split
  · exact nofun
  · exact nofun

theorem hostCommand_hasPosition (w : CmdWord) (k : Instr → State → Host.Outcome State Fault Refusal) (s : State)
    (hk : ∀ i, HasPosition (k i s)) : HasPosition (hostCommand w k s) := by
  unfold hostCommand
  split
  · exact nofun
  split
  · exact nofun
  · exact hk _

theorem hostStep_hasPosition (e : HostEvent) {s : State} (h : s.position = true) : HasPosition (hostStep e s) := by
  cases e with
  | wait => exact seqStep_hasPosition h
  | issue w => exact hostCommand_hasPosition w exec s fun i => exec_hasPosition i s
  | present w => exact hostCommand_hasPosition w presentCommand s fun i => presentCommand_hasPosition i s
  | bufWrite i v =>
    simp only [hostStep, hostBufWrite]
    split
    · exact nofun
    · exact nofun
  | bufRead i =>
    simp only [hostStep, hostBufRead]
    split
    · exact nofun
    split
    · exact nofun
    · exact nofun
  | resultRead =>
    simp only [hostStep, hostResultRead]
    split
    · exact nofun
    split
    · exact nofun
    · exact nofun

/-- Settles O59: only the invariant's `place` is needed. -/
theorem alwaysAPosition : Obligations.AlwaysAPosition := by
  intro s ph seg hs
  unfold step
  split
  · exact seqStep_hasPosition hs.place ph seg
  · rename_i e rest _
    have hplace : State.position { s with host := rest } = true := hs.place
    exact hostStep_hasPosition e hplace ph seg

end Sys2Proof.Machine
end

-- ==== Every step keeps the invariant ====
section
/-! PROOFS. Every step keeps the invariant, obligation O58. `State.Sound` is the part of it that speaks of no position and
`State.Running` adds that OPC names SEG's command; every access keeps both. A whole command keeps the invariant since its
single accesses do and come to where the command ends (O43). -/

namespace Sys2Proof.Machine

/-! ## The invariant without the position -/

/-- What holds at every access, wherever SEQ is: the parameters, BUF and the link to PERIPH. -/
structure State.Sound (s : State) : Prop where
  config : s.cfg.wf = true
  buffer : Memory.wf s.buf
  link : LinkOk s

/-- What holds at every access of a command: besides, OPC names the command that SEG belongs to (R45). -/
structure State.Running (s : State) : Prop extends s.Sound where
  opcode : s.opc = s.seg.opcode

section
variable {s t : State}

theorem State.Inv.sound (h : s.Inv) : s.Sound := ⟨h.config, h.buffer, fun hf => ⟨h.flagEnabled hf, h.flagStat hf⟩⟩

theorem State.Inv.running (h : s.Inv) (hp : s.ph ≠ .idle) : s.Running := ⟨h.sound, h.opcode hp⟩

theorem State.Sound.inv_of_idle (h : s.Sound) (hp : s.ph = .idle) : s.Inv where
  config := h.config
  buffer := h.buffer
  flagEnabled hf := (h.link hf).1
  flagStat hf := (h.link hf).2
  place := by simp [State.position, hp]
  opcode hne := absurd hp hne

theorem State.Running.inv (h : s.Running) (hplace : s.position = true) : s.Inv where
  config := h.config
  buffer := h.buffer
  flagEnabled hf := (h.link hf).1
  flagStat hf := (h.link hf).2
  place := hplace
  opcode _ := h.opcode

theorem State.Running.goTo_inv (h : s.Running) (p : Phase) (hplace : (s.goTo p).position = true) : (s.goTo p).Inv :=
  State.Running.inv { h with } hplace

theorem finish_inv (h : s.Sound) (c : Byte) : (finish c s).Inv := State.Sound.inv_of_idle { h with } rfl

theorem finishQuiet_inv (h : s.Sound) : (finishQuiet s).Inv := State.Sound.inv_of_idle { h with } rfl

theorem BusOnly.sound (h : BusOnly s t) (hl : LinkOk t) (hs : s.Sound) : t.Sound :=
  ⟨h.cfg ▸ hs.config, h.buf ▸ hs.buffer, hl⟩

theorem BusOnly.running (h : BusOnly s t) (hl : LinkOk t) (hs : s.Running) : t.Running :=
  ⟨h.sound hl hs.toSound, by rw [h.opc, h.seg, hs.opcode]⟩

/-! ## The accesses of the phases -/

theorem enter_running (p : Phase) (hs : s.Running) : (enter p s).Running :=
  (enter_busOnly p s).running (enter_link p s hs.link) hs

theorem doTrigger_running (p : Phase) (w : Byte) (hs : s.Running) : (doTrigger p w s).Running :=
  (doTrigger_spec p w s).1.running (doTrigger_link p w s hs.link) hs

theorem doPoll_running (p : Phase) (hs : s.Running) : (doPoll p s).2.Running :=
  (doPoll_busOnly p s).running (doPoll_link p s hs.link) hs

theorem doStatus_running (p : Phase) (hs : s.Running) : (doStatus p s).Running :=
  (doStatus_busOnly p s).running (doStatus_link p s hs.link) hs

theorem doWriteData_running (p : Phase) (v : Byte) (hs : s.Running) : (doWriteData p v s).Running :=
  (doWriteData_busOnly p v s).running (doWriteData_link p v s hs.link) hs

theorem doFetch_running (h : doFetch s = some t) (hs : s.Running) : t.Running := by
  have hr := enter_running .tFetch hs
  simp only [doFetch] at h
  split at h
  · cases h
    exact { hr with }
  · cases h

theorem doReceive_running (hs : s.Running) : (doReceive s).Running := by
  have hr := enter_running .rData hs
  unfold doReceive
  generalize enter .rData s = u at hr ⊢
  exact { hr with }

theorem doStore_running (hs : s.Running) : (doStore s).Running :=
  { enter_running .rStore hs with buffer := doStore_bufWf s hs.buffer }

theorem doConfigDiv_running (hs : s.Running) : (doConfigDiv s).Running := by
  have hr := enter_running .cfgDiv hs
  simp only [doConfigDiv]
  split
  · exact { hr with }
  · exact { hr with }

theorem doConfigDiv_seg : (doConfigDiv s).seg = s.seg := by
  have hseg := (enter_busOnly .cfgDiv s).seg
  simp only [doConfigDiv]
  split
  · exact hseg
  · exact hseg

theorem doConfigPullup_running (hs : s.Running) : (doConfigPullup s).Running := { enter_running .cfgPu hs with }

theorem doConfigPullup_seg : (doConfigPullup s).seg = s.seg := (enter_busOnly .cfgPu s).seg

theorem writeCtrl_running (w : Byte) (hs : s.Running) : (writeCtrl w s).Running :=
  { hs with link := writeCtrl_link w s hs.link }

theorem doConfigEnable_running (hs : s.Running) : (doConfigEnable s).Running :=
  writeCtrl_running _ (enter_running .cfgEn hs)

theorem doResetCtrl_running (hs : s.Running) : (doResetCtrl s).Running :=
  writeCtrl_running _ (enter_running .xCtrl hs)

/-! ## The parts of a position -/

theorem addressing_iff :
    State.position.addressing s = true ↔
      AddressSeg s.seg ∧ s.retry.toNat ≤ s.cfg.addrRetries.toNat ∧ s.dir = if s.seg = .rbB then .read else .write := by
  simp only [State.position.addressing, AddressSeg, Bool.and_eq_true, Bool.or_eq_true, beq_iff_eq, decide_eq_true_eq,
    or_assoc, and_assoc]

theorem sending_iff :
    State.position.sending s = true ↔
      s.seg = .sb ∨ s.seg = .wbReg ∨ s.seg = .rbReg ∨ s.seg = .wbData ∧ s.idx.toNat < s.len.toNat := by
  simp only [State.position.sending, Bool.and_eq_true, Bool.or_eq_true, beq_iff_eq, decide_eq_true_eq, or_assoc]

theorem receiving_iff : State.position.receiving s = true ↔ s.seg = .rbData ∧ s.idx.toNat < s.len.toNat := by
  simp only [State.position.receiving, Bool.and_eq_true, beq_iff_eq, decide_eq_true_eq]

theorem stopping_iff : State.position.stopping s = true ↔ StopSeg s.seg := by
  simp only [State.position.stopping, StopSeg, Bool.or_eq_true, beq_iff_eq]

theorem polling_iff :
    State.position.polling s = true ↔ 0 < s.poll.toNat ∧ s.poll.toNat ≤ s.cfg.pollLimit.toNat := by
  simp only [State.position.polling, Bool.and_eq_true, decide_eq_true_eq]

theorem BusOnly.addressing (h : BusOnly s t) : State.position.addressing t = State.position.addressing s := by
  simp only [State.position.addressing, h.seg, h.retry, h.cfg, h.dir]

theorem BusOnly.sending (h : BusOnly s t) : State.position.sending t = State.position.sending s := by
  simp only [State.position.sending, h.seg, h.idx, h.len]

theorem BusOnly.receiving (h : BusOnly s t) : State.position.receiving t = State.position.receiving s := by
  simp only [State.position.receiving, h.seg, h.idx, h.len]

theorem BusOnly.stopping (h : BusOnly s t) : State.position.stopping t = State.position.stopping s := by
  simp only [State.position.stopping, h.seg]

/-- A trigger loads POLL with a limit that is not 0 (R7, R160). -/
theorem doTrigger_polling (p : Phase) (w : Byte) (hs : s.Running) :
    State.position.polling (doTrigger p w s) = true := by
  obtain ⟨hb, -, hpoll, -⟩ := doTrigger_spec p w s
  have hl := pollLimit_ne_zero hs.config
  rw [polling_iff, hpoll, hb.cfg]
  bv_omega

/-- The place of a WAIT but for POLL, which a poll may count down to 0 (R160). -/
inductive AtWait (s : State) : Phase → Prop where
  | start (h : State.position.addressing s = true) : AtWait s .aStartWait
  | addr (h : State.position.addressing s = true) : AtWait s .aAddrWait
  | send (h : State.position.sending s = true) : AtWait s .tWait
  | receive (h : State.position.receiving s = true) : AtWait s .rWait
  | stop (h : State.position.stopping s = true) : AtWait s .sWait

theorem AtWait.of_busOnly {p : Phase} (h : AtWait s p) (hb : BusOnly s t) : AtWait t p := by
  cases h with
  | start h => exact .start (hb.addressing.trans h)
  | addr h => exact .addr (hb.addressing.trans h)
  | send h => exact .send (hb.sending.trans h)
  | receive h => exact .receive (hb.receiving.trans h)
  | stop h => exact .stop (hb.stopping.trans h)

theorem AtWait.position {p : Phase} (h : AtWait s p) (hp : s.ph = p) (hpoll : State.position.polling s = true) :
    s.position = true := by
  cases h with
  | start h => simp [State.position, hp, h, hpoll]
  | addr h => simp [State.position, hp, h, hpoll]
  | send h => simp [State.position, hp, h, hpoll]
  | receive h => simp [State.position, hp, h, hpoll]
  | stop h => simp [State.position, hp, h, hpoll]

/-- A trigger at the place of the WAIT that follows it. -/
theorem trigger_inv {p : Phase} (q : Phase) (w : Byte) (hs : s.Running) (h : AtWait s p) :
    ((doTrigger q w s).goTo p).Inv := by
  have hr := doTrigger_running q w hs
  have hw : AtWait ((doTrigger q w s).goTo p) p :=
    (h.of_busOnly (doTrigger_spec q w s).1).of_busOnly { BusOnly.refl (doTrigger q w s) with }
  exact hr.goTo_inv p (hw.position rfl (doTrigger_polling q w hs))

/-! ## Where SEQ goes next -/

/-- Where the outcome is a next state, it meets the invariant. -/
inductive NextInv : Host.Outcome State Fault Refusal → Prop where
  | next {t : State} (h : t.Inv) : NextInv (.next t)
  | fault (f : Fault) : NextInv (.fault f)
  | refused (r : Refusal) : NextInv (.refused r)

theorem NextInv.inv (h : NextInv (.next t)) : t.Inv := by
  cases h with
  | next h => exact h

theorem toAddress_inv {g : Seg} {dir : Dir} (hs : s.Sound) (hopc : s.opc = g.opcode) (hg : AddressSeg g)
    (hdir : dir = if g = .rbB then .read else .write) : (toAddress g dir s).Inv :=
  State.Running.inv { hs with opcode := hopc } (addressing_iff.2 ⟨hg, Nat.le_refl _, hdir⟩)

/-- At RDBLK's label `fin` only OPC matters. -/
theorem toFin_inv (hs : s.Sound) (hopc : s.opc = 5) : (toFin s).Inv :=
  State.Running.inv { hs with opcode := hopc } (stopping_iff.2 (.inr rfl))

theorem State.Sound.withErr (hs : s.Sound) (e : Byte) : State.Sound { s with err := e } := { hs with }

theorem toReceive_inv (hs : s.Running) (hseg : s.seg = .rbData) (hle : s.idx.toNat ≤ s.len.toNat) :
    (toReceive s).Inv := by
  by_cases he : s.idx = s.len
  · rw [toReceive, if_pos he]
    exact toFin_inv hs.toSound (by rw [hs.opcode, hseg]; rfl)
  · have hlt : s.idx.toNat < s.len.toNat := by bv_omega
    rw [toReceive_of_lt hlt]
    exact hs.goTo_inv .rTrig (receiving_iff.2 ⟨hseg, hlt⟩)

theorem toData_inv (hs : s.Running) (hseg : s.seg = .wbData) (hle : s.idx.toNat ≤ s.len.toNat) : (toData s).Inv := by
  by_cases he : s.idx = s.len
  · rw [toData, if_pos he]
    exact finish_inv hs.toSound 0
  · have hlt : s.idx.toNat < s.len.toNat := by bv_omega
    rw [toData_of_lt hlt]
    exact hs.goTo_inv .tFetch (by simp [State.position, State.goTo, hseg, hlt])

theorem afterAddress_nextInv (r : Byte) (hs : s.Running) (h : AddressSeg s.seg) : NextInv (afterAddress r s) := by
  have hopc := hs.opcode
  rcases h with h | h | h | h
  · rw [afterAddress_bt r h]
    exact .next (finish_inv hs.toSound r)
  · rw [afterAddress_wbAddr r h]
    refine .next ?_
    split
    · exact finish_inv hs.toSound r
    · exact State.Running.inv { hs with opcode := by rw [h] at hopc; exact hopc } rfl
  · rw [afterAddress_rbA r h]
    rw [h] at hopc
    refine .next ?_
    split
    · exact toFin_inv (hs.toSound.withErr r) hopc
    · exact State.Running.inv { hs with opcode := hopc } rfl
  · rw [afterAddress_rbB r h]
    rw [h] at hopc
    refine .next ?_
    split
    · exact toFin_inv (hs.toSound.withErr r) hopc
    · exact toReceive_inv { hs with opcode := hopc } rfl (Nat.zero_le _)

theorem afterTxByte_nextInv (r : Byte) (hs : s.Running) (h : State.position.sending s = true) :
    NextInv (afterTxByte r s) := by
  have hopc := hs.opcode
  rcases sending_iff.1 h with h | h | h | ⟨h, hlt⟩
  · rw [afterTxByte_sb r h]
    exact .next (finish_inv hs.toSound r)
  · rw [afterTxByte_wbReg r h]
    rw [h] at hopc
    refine .next ?_
    split
    · exact finish_inv hs.toSound r
    · exact toData_inv { hs with opcode := hopc } rfl (Nat.zero_le _)
  · rw [afterTxByte_rbReg r h]
    rw [h] at hopc
    refine .next ?_
    split
    · exact toFin_inv (hs.toSound.withErr r) hopc
    · exact toAddress_inv hs.toSound hopc (.inr (.inr (.inr rfl))) rfl
  · rw [afterTxByte_wbData r h]
    refine .next ?_
    split
    · exact finish_inv hs.toSound r
    · have hle : (s.idx + 1).toNat ≤ s.len.toNat := by bv_omega
      exact toData_inv { hs with } h hle

theorem afterStop_nextInv (e : WaitEnd) (hs : s.Running) (h : StopSeg s.seg) : NextInv (afterStop e s) := by
  rcases h with h | h
  · rw [afterStop_st e h]
    refine .next ?_
    split
    · exact finish_inv hs.toSound _
    · exact finish_inv hs.toSound _
  · rw [afterStop_rbStop e h]
    exact .next (finish_inv hs.toSound _)

theorem afterWaitOk_nextInv {p : Phase} (hp : s.ph = p) (hs : s.Running) (h : AtWait s p) :
    NextInv (afterWaitOk s) := by
  cases h with
  | start h => simpa only [afterWaitOk, hp] using .next (hs.goTo_inv .aStartStat h)
  | addr h => simpa only [afterWaitOk, hp] using .next (hs.goTo_inv .aAddrStat h)
  | send h => simpa only [afterWaitOk, hp] using .next (hs.goTo_inv .tStat h)
  | receive h => simpa only [afterWaitOk, hp] using .next (hs.goTo_inv .rStat h)
  | stop h => simpa only [afterWaitOk, hp] using afterStop_nextInv .ok hs (stopping_seg h)

theorem afterWaitTimeout_nextInv {p : Phase} (hp : s.ph = p) (hs : s.Running) (h : AtWait s p) :
    NextInv (afterWaitTimeout s) := by
  cases h with
  | start h =>
    obtain ⟨c, hc⟩ := (addressing_seg h).codes s.cfg.codes
    simpa only [afterWaitTimeout, hp, hc] using afterAddress_nextInv _ hs (addressing_seg h)
  | addr h =>
    obtain ⟨c, hc⟩ := (addressing_seg h).codes s.cfg.codes
    simpa only [afterWaitTimeout, hp, hc] using afterAddress_nextInv _ hs (addressing_seg h)
  | send h =>
    obtain ⟨c, hc⟩ := (sending_seg h).codes s.cfg.codes
    simpa only [afterWaitTimeout, hp, hc] using afterTxByte_nextInv _ hs h
  | receive h =>
    obtain ⟨hseg, -⟩ := receiving_iff.1 h
    have hopc : s.opc = 5 := by rw [hs.opcode, hseg]; rfl
    rw [afterWaitTimeout, hp]
    exact .next (toFin_inv { hs.toSound with } hopc)
  | stop h => simpa only [afterWaitTimeout, hp] using afterStop_nextInv .timeout hs (stopping_seg h)

/-! ## One access of SEQ -/

theorem pollStep_nextInv {p : Phase} (hp : s.ph = p) (hs : s.Running) (h : AtWait s p)
    (hpoll : State.position.polling s = true) : NextInv (pollStep p s) := by
  have hb := doPoll_busOnly p s
  have hr := doPoll_running p hs
  have hw := h.of_busOnly hb
  have hph := doPoll_ph p s
  obtain ⟨hpos, hle⟩ := polling_iff.1 hpoll
  unfold pollStep
  simp only
  split
  · exact afterWaitTimeout_nextInv hp hs h
  split
  · exact afterWaitOk_nextInv hph hr hw
  split
  · exact afterWaitTimeout_nextInv hph hr hw
  · rename_i hne
    refine .next (hr.inv (hw.position hph (polling_iff.2 ?_)))
    rw [doPoll_poll] at hne ⊢
    rw [hb.cfg]
    bv_omega

theorem startStatStep_nextInv (hs : s.Running) (h : State.position.addressing s = true) :
    NextInv (startStatStep s) := by
  obtain ⟨c, hc⟩ := (addressing_seg h).codes s.cfg.codes
  have hr := doStatus_running .aStartStat hs
  rw [← (doStatus_busOnly .aStartStat s).addressing] at h
  rw [startStatStep_eq c s hc]
  split
  · exact .next (hr.goTo_inv .aAddrData h)
  · exact afterAddress_nextInv _ hr (addressing_seg h)

/-- A retry is made only where RETRY is not 0, and lowers it (R166). -/
theorem addrVerdict_nextInv (dir : Dir) (c : AddrCodes) (hs : s.Running) (h : State.position.addressing s = true) :
    NextInv (addrVerdict dir c s) := by
  unfold addrVerdict
  split
  · rename_i hretry
    obtain ⟨-, hne⟩ := hretry
    obtain ⟨hseg, hle, hdir⟩ := addressing_iff.1 h
    have hless : (s.retry - 1).toNat ≤ s.cfg.addrRetries.toNat := by bv_omega
    have hnext : s.nextAttempt.Running := { hs with }
    exact .next (hnext.goTo_inv .aStart (addressing_iff.2 ⟨hseg, hless, hdir⟩))
  split
  · exact afterAddress_nextInv _ hs (addressing_seg h)
  · exact afterAddress_nextInv _ hs (addressing_seg h)

theorem addrStatStep_nextInv (hs : s.Running) (h : State.position.addressing s = true) :
    NextInv (addrStatStep s) := by
  obtain ⟨c, hc⟩ := (addressing_seg h).codes s.cfg.codes
  rw [← (doStatus_busOnly .aAddrStat s).addressing] at h
  rw [addrStatStep_eq s.dir c s rfl hc]
  exact addrVerdict_nextInv s.dir c (doStatus_running .aAddrStat hs) h

theorem txDataStep_nextInv (hs : s.Running) (h : State.position.sending s = true) : NextInv (txDataStep s) := by
  obtain ⟨v, hv⟩ := (sending_seg h).byte
  rw [← (doWriteData_busOnly .tData v s).sending] at h
  simp only [txDataStep, hv]
  exact .next ((doWriteData_running .tData v hs).goTo_inv .tTrig h)

theorem txStatStep_nextInv (hs : s.Running) (h : State.position.sending s = true) : NextInv (txStatStep s) := by
  obtain ⟨c, hc⟩ := (sending_seg h).codes s.cfg.codes
  rw [← (doStatus_busOnly .tStat s).sending] at h
  rw [txStatStep_eq c s hc]
  exact afterTxByte_nextInv _ (doStatus_running .tStat hs) h

theorem fetchStep_nextInv (hs : s.Running) (hseg : s.seg = .wbData) (hlt : s.idx.toNat < s.len.toNat) :
    NextInv (fetchStep s) := by
  unfold fetchStep
  split
  · rename_i t hf
    obtain ⟨tseg, tidx, tlen, -⟩ := doFetch_keeps hf
    refine .next ((doFetch_running hf hs).goTo_inv .tData (sending_iff.2 (.inr (.inr (.inr ⟨tseg.trans hseg, ?_⟩)))))
    have htlt : t.idx.toNat < t.len.toNat := by rwa [tidx, tlen]
    exact htlt
  · exact .fault _

theorem rxStatStep_nextInv (hs : s.Running) (h : State.position.receiving s = true) : NextInv (rxStatStep s) := by
  have hr := doStatus_running .rStat hs
  rw [← (doStatus_busOnly .rStat s).receiving] at h
  rw [rxStatStep_eq]
  refine .next ?_
  split
  · exact hr.goTo_inv .rData h
  · obtain ⟨hseg, -⟩ := receiving_iff.1 h
    exact toFin_inv (hr.toSound.withErr _) (by rw [hr.opcode, hseg]; rfl)

theorem doReceive_receiving : State.position.receiving (doReceive s) = State.position.receiving s := by
  have hb := (enter_busOnly .rData s).receiving
  unfold doReceive
  generalize enter .rData s = u at hb ⊢
  exact hb

theorem receiveData_inv (hs : s.Running) (h : State.position.receiving s = true) :
    ((doReceive s).goTo .rStore).Inv :=
  (doReceive_running hs).goTo_inv .rStore (doReceive_receiving.trans h)

theorem storeByte_inv (hs : s.Running) (h : State.position.receiving s = true) : (toReceive (doStore s)).Inv := by
  obtain ⟨hseg, hlt⟩ := receiving_iff.1 h
  obtain ⟨-, hidx, -, -, hlen, -⟩ := doStore_spec s
  refine toReceive_inv (doStore_running hs) ((enter_busOnly .rStore s).seg.trans hseg) ?_
  rw [hidx, hlen]
  bv_omega

theorem addrData_inv (v : Byte) (hs : s.Running) (h : State.position.addressing s = true) :
    ((doWriteData .aAddrData v s).goTo .aAddrTrig).Inv :=
  (doWriteData_running .aAddrData v hs).goTo_inv .aAddrTrig ((doWriteData_busOnly .aAddrData v s).addressing.trans h)

/-- From every position SEQ's access leads to a position, or back to IDLE (R45). -/
theorem seqStep_nextInv (hs : s.Inv) : NextInv (seqStep s) := by
  have hplace := hs.place
  by_cases hidle : s.ph = .idle
  · rw [seqStep, hidle]
    obtain ⟨-, -, -, -, -, -, hph, -⟩ := periphTurn_keeps s
    exact .next (((periphTurn_busOnly s).sound (periphTurn_link s hs.sound.link) hs.sound).inv_of_idle (hph.trans hidle))
  have hr := hs.running hidle
  cases hp : s.ph with
  | idle => exact absurd hp hidle
  | cfgDiv =>
    simp only [State.position, hp, beq_iff_eq] at hplace
    rw [seqStep, hp]
    exact .next ((doConfigDiv_running hr).goTo_inv .cfgPu (beq_iff_eq.2 (doConfigDiv_seg.trans hplace)))
  | cfgPu =>
    simp only [State.position, hp, beq_iff_eq] at hplace
    rw [seqStep, hp]
    exact .next ((doConfigPullup_running hr).goTo_inv .cfgEn (beq_iff_eq.2 (doConfigPullup_seg.trans hplace)))
  | cfgEn =>
    rw [seqStep, hp]
    exact .next (finishQuiet_inv (doConfigEnable_running hr).toSound)
  | xCtrl =>
    rw [seqStep, hp]
    exact .next (finishQuiet_inv (doResetCtrl_running hr).toSound)
  | aStart =>
    simp only [State.position, hp] at hplace
    rw [seqStep, hp]
    exact .next (trigger_inv .aStart _ hr (.start hplace))
  | aAddrTrig =>
    simp only [State.position, hp] at hplace
    rw [seqStep, hp]
    exact .next (trigger_inv .aAddrTrig _ hr (.addr hplace))
  | tTrig =>
    simp only [State.position, hp] at hplace
    rw [seqStep, hp]
    exact .next (trigger_inv .tTrig _ hr (.send hplace))
  | rTrig =>
    simp only [State.position, hp] at hplace
    rw [seqStep, hp]
    exact .next (trigger_inv .rTrig _ hr (.receive hplace))
  | sTrig =>
    simp only [State.position, hp] at hplace
    rw [seqStep, hp]
    exact .next (trigger_inv .sTrig _ hr (.stop hplace))
  | aStartWait =>
    simp only [State.position, hp, Bool.and_eq_true] at hplace
    obtain ⟨haddr, hpoll⟩ := hplace
    exact seqStep_of_isWait .aStartWait s hp ▸ pollStep_nextInv hp hr (.start haddr) hpoll
  | aAddrWait =>
    simp only [State.position, hp, Bool.and_eq_true] at hplace
    obtain ⟨haddr, hpoll⟩ := hplace
    exact seqStep_of_isWait .aAddrWait s hp ▸ pollStep_nextInv hp hr (.addr haddr) hpoll
  | tWait =>
    simp only [State.position, hp, Bool.and_eq_true] at hplace
    obtain ⟨hsend, hpoll⟩ := hplace
    exact seqStep_of_isWait .tWait s hp ▸ pollStep_nextInv hp hr (.send hsend) hpoll
  | rWait =>
    simp only [State.position, hp, Bool.and_eq_true] at hplace
    obtain ⟨hrecv, hpoll⟩ := hplace
    exact seqStep_of_isWait .rWait s hp ▸ pollStep_nextInv hp hr (.receive hrecv) hpoll
  | sWait =>
    simp only [State.position, hp, Bool.and_eq_true] at hplace
    obtain ⟨hstop, hpoll⟩ := hplace
    exact seqStep_of_isWait .sWait s hp ▸ pollStep_nextInv hp hr (.stop hstop) hpoll
  | aStartStat =>
    simp only [State.position, hp] at hplace
    rw [seqStep, hp]
    exact startStatStep_nextInv hr hplace
  | aAddrData =>
    simp only [State.position, hp] at hplace
    rw [seqStep, hp]
    exact .next (addrData_inv _ hr hplace)
  | aAddrStat =>
    simp only [State.position, hp] at hplace
    rw [seqStep, hp]
    exact addrStatStep_nextInv hr hplace
  | tFetch =>
    simp only [State.position, hp, Bool.and_eq_true, beq_iff_eq, decide_eq_true_eq] at hplace
    obtain ⟨hseg, hlt⟩ := hplace
    rw [seqStep, hp]
    exact fetchStep_nextInv hr hseg hlt
  | tData =>
    simp only [State.position, hp] at hplace
    rw [seqStep, hp]
    exact txDataStep_nextInv hr hplace
  | tStat =>
    simp only [State.position, hp] at hplace
    rw [seqStep, hp]
    exact txStatStep_nextInv hr hplace
  | rStat =>
    simp only [State.position, hp] at hplace
    rw [seqStep, hp]
    exact rxStatStep_nextInv hr hplace
  | rData =>
    simp only [State.position, hp] at hplace
    rw [seqStep, hp]
    exact .next (receiveData_inv hr hplace)
  | rStore =>
    simp only [State.position, hp] at hplace
    rw [seqStep, hp]
    exact .next (storeByte_inv hr hplace)

/-! ## Whole commands and HOST's moves -/

theorem NextInv.thenDo {o : Host.Outcome State Fault Refusal} {k : State → Host.Outcome State Fault Refusal}
    (h : NextInv o) (hk : ∀ u, u.Inv → NextInv (k u)) : NextInv (thenDo o k) := by
  cases h with
  | next h => exact hk _ h
  | fault f => exact .fault f
  | refused r => exact .refused r

theorem seqRun_nextInv (n : Nat) (hs : s.Inv) : NextInv (seqRun n s) := by
  induction n generalizing s with
  | zero => exact .next hs
  | succ n ih =>
    rw [seqRun]
    split
    · exact .next hs
    · exact (seqStep_nextInv hs).thenDo fun _ => ih

theorem ComesTo.nextInv {o : Host.Outcome State Fault Refusal} (h : ComesTo (.next s) o) (hs : s.Inv) : NextInv o := by
  obtain ⟨n, rfl⟩ := h
  exact seqRun_nextInv n hs

theorem accepted_sound (i : Instr) (hs : s.Sound) : (accepted i s).Sound where
  config := by rw [accepted_cfg]; exact hs.config
  buffer := by rw [accepted_buf]; exact hs.buffer
  link := by
    unfold LinkOk
    rw [accepted_flag, accepted_en, accepted_statWritten]
    exact hs.link

/-- A command begins at its first position (R112). -/
theorem startCommand_inv (i : Instr) (hs : s.Sound) (hopc : s.opc = i.opcode) : (startCommand i s).Inv := by
  cases i with
  | configure khz pu => exact State.Running.inv { hs with opcode := hopc } rfl
  | beginTrans dev => exact toAddress_inv hs hopc (.inl rfl) rfl
  | send val => exact State.Running.inv { hs with opcode := hopc } rfl
  | wrblk dev reg len => exact toAddress_inv hs hopc (.inr (.inl rfl)) rfl
  | rdblk dev reg len => exact toAddress_inv (hs.withErr 0) hopc (.inr (.inr (.inl rfl))) rfl
  | stop => exact State.Running.inv { hs with opcode := hopc } rfl
  | reset => exact State.Running.inv { hs with opcode := hopc } rfl

theorem startCommand_accepted_inv (i : Instr) (hs : s.Sound) : (startCommand i (accepted i s)).Inv :=
  startCommand_inv i (accepted_sound i hs) (accepted_opc s i)

/-- A whole command ends where its single accesses lead (O43), and each of them keeps the invariant. -/
theorem exec_nextInv (i : Instr) (hs : s.Inv) (hp : s.ph = .idle) : NextInv (exec i s) := by
  cases hi : i.wf with
  | true => exact (exec_comesTo i s hs.config hp hi).nextInv (startCommand_accepted_inv i hs.sound)
  | false =>
    have hexec : exec i s = .refused (.illegal .zeroClock) := by simp [exec_eq, accept, hp, hi, Machine.thenDo]
    exact hexec ▸ .refused _

theorem presentCommand_nextInv (i : Instr) (hs : s.Inv) : NextInv (presentCommand i s) := by
  rw [presentCommand, accept]
  split
  · exact .refused _
  split
  · exact .refused _
  · exact .next (startCommand_accepted_inv i hs.sound)

theorem hostCommand_nextInv (w : CmdWord) {k : Instr → State → Host.Outcome State Fault Refusal}
    (hk : ∀ i, s.ph = .idle → NextInv (k i s)) : NextInv (hostCommand w k s) := by
  unfold hostCommand
  split
  · exact .refused _
  · rename_i hp
    split
    · exact .refused _
    · exact hk _ (not_not.1 hp)

theorem hostBufWrite_nextInv (i v : Byte) (hs : s.Inv) : NextInv (hostBufWrite i v s) := by
  unfold hostBufWrite
  split
  · exact .refused _
  · exact .next { hs with buffer := Memory.write_wf _ _ _ i.isLt hs.buffer }

theorem hostBufRead_nextInv (i : Byte) (hs : s.Inv) : NextInv (hostBufRead i s) := by
  unfold hostBufRead
  split
  · exact .refused _
  split
  · exact .next { hs with }
  · exact .fault _

theorem hostResultRead_nextInv (hs : s.Inv) : NextInv (hostResultRead s) := by
  unfold hostResultRead
  split
  · exact .refused _
  split
  · exact .next { hs with }
  · exact .fault _

theorem hostStep_nextInv (e : HostEvent) (hs : s.Inv) : NextInv (hostStep e s) := by
  cases e with
  | wait => exact seqStep_nextInv hs
  | issue w => exact hostCommand_nextInv w fun i => exec_nextInv i hs
  | present w => exact hostCommand_nextInv w fun i _ => presentCommand_nextInv i hs
  | bufWrite i v => exact hostBufWrite_nextInv i v hs
  | bufRead i => exact hostBufRead_nextInv i hs
  | resultRead => exact hostResultRead_nextInv hs

theorem step_nextInv (hs : s.Inv) : NextInv (step s) := by
  unfold step
  split
  · exact seqStep_nextInv hs
  · rename_i e rest _
    exact hostStep_nextInv e { hs with }

end

/-- Settles O58: every outcome of a step from a state of the invariant keeps it. -/
theorem invStep : Obligations.InvStep := fun _ _ hs ht => NextInv.inv (ht ▸ step_nextInv hs)

end Sys2Proof.Machine
end

-- ==== CTRL, PERIPH's turn and the issue of a command ====
section
/-! PROOFS. What a write and a read of CTRL do, when PERIPH moves, and that a legal word issued to an idle block runs its
command, obligations O7, O8, O9 and O40. -/

namespace Sys2Proof.Machine

/-! ## CTRL (R72, R73) -/

/-- A write of CTRL clears FLAG if the word has INT = 1 or EN = 0 (R72). -/
theorem writeCtrl_flag_cleared (w : Byte) (s : State)
    (h : w.getLsbD s.cfg.bits.bInt = true ∨ w.getLsbD s.cfg.bits.bEn = false) : (writeCtrl w s).flag = false := by
  rcases h with h | h
  · simp only [writeCtrl_flag, flagAfterCtrlWrite, h, Bool.true_or, if_true]
  · simp only [writeCtrl_flag, flagAfterCtrlWrite, h, Bool.not_false, Bool.or_true, if_true]

theorem writeCtrl_flag_kept (w : Byte) (s : State) (hint : w.getLsbD s.cfg.bits.bInt = false)
    (hen : w.getLsbD s.cfg.bits.bEn = true) : (writeCtrl w s).flag = s.flag := by
  simp only [writeCtrl_flag, flagAfterCtrlWrite, hint, hen, Bool.not_true, Bool.or_self, Bool.false_eq_true, if_false]

theorem writeCtrl_trigger_enables (w : Byte) (s : State) (h : triggersPhase s.cfg.bits w = true) :
    periphEnabled (writeCtrl w s) = true := by
  simp only [triggersPhase, Bool.and_eq_true] at h
  obtain ⟨hint, hen⟩ := h
  rw [periphEnabled, writeCtrl_flag_cleared w s (.inl hint), writeCtrl_en, hen]
  rfl

/-- Settles O7: the four fields are the word's bits, and FLAG has its two cases. -/
theorem ctrlWrite : Obligations.CtrlWrite := fun w s =>
  ⟨⟨rfl, rfl, rfl, rfl⟩, writeCtrl_flag_cleared w s, writeCtrl_flag_kept w s, writeCtrl_trigger_enables w s, rfl⟩

theorem readCtrl_unnamed (s : State) (n : Fin 8)
    (hn : n ∉ [s.cfg.bits.bEn, s.cfg.bits.bSta, s.cfg.bits.bSto, s.cfg.bits.bInt, s.cfg.bits.bEa]) :
    (readCtrl s).1 n = (Config.freeByte s.draws).getLsbD n := by
  simp only [List.mem_cons, List.not_mem_nil, or_false, not_or] at hn
  obtain ⟨hen, hsta, hsto, hint, hea⟩ := hn
  simp [readCtrl, ctrlReadBit, hen, hsta, hsto, hint, hea]

/-- With the five positions distinct no field hides another (R8, R73). -/
theorem readCtrl_fields (s : State) (h : s.cfg.bits.wf = true) :
    (readCtrl s).1 s.cfg.bits.bEn = s.en ∧ (readCtrl s).1 s.cfg.bits.bSta = s.sta ∧
      (readCtrl s).1 s.cfg.bits.bSto = s.sto ∧ (readCtrl s).1 s.cfg.bits.bEa = s.ea := by
  simp only [BitPositions.wf, decide_eq_true_eq, List.nodup_cons, List.mem_cons, List.not_mem_nil, or_false, not_or] at h
  obtain ⟨⟨en_sta, en_sto, en_int, en_ea⟩, ⟨sta_sto, sta_int, sta_ea⟩, ⟨sto_int, sto_ea⟩, int_ea, -⟩ := h
  refine ⟨?_, ?_, ?_, ?_⟩
  · simp [readCtrl, ctrlReadBit, en_int]
  · simp [readCtrl, ctrlReadBit, sta_int, Ne.symm en_sta]
  · simp [readCtrl, ctrlReadBit, sto_int, Ne.symm en_sto, Ne.symm sta_sto]
  · simp [readCtrl, ctrlReadBit, Ne.symm int_ea, Ne.symm en_ea, Ne.symm sta_ea, Ne.symm sto_ea]

/-- Settles O8: bit by bit of the byte read. -/
theorem ctrlRead : Obligations.CtrlRead := by
  intro s h
  obtain ⟨hen, hsta, hsto, hea⟩ := readCtrl_fields s h
  exact ⟨readCtrl_int s, hen, hsta, hsto, hea, readCtrl_unnamed s, readCtrl_state s⟩

/-! ## PERIPH (R79 to R82) -/

theorem periphTurn_free (s : State) (hf : s.flag = false) (he : s.en = true) (hs : s.script = []) :
    periphTurn s = periphMove (Config.freePeriphMove s.clock) { s with clock := s.clock + 1 } := by
  simp [periphTurn, periphEnabled, hf, he, hs]

/-- Settles O9: the script's next move where there is one, else a free move, which is either of the two. -/
theorem periphStepRule : Obligations.PeriphStepRule := by
  refine ⟨fun s h => periphTurn_disabled s ?_, fun s x y rest => periphTurn_script s (.complete x y) rest,
    fun s rest => periphTurn_script s .stay rest, fun s hf he hs => ?_⟩
  · rcases h with h | h
    · simp [periphEnabled, h]
    · simp [periphEnabled, h]
  · rw [periphTurn_free s hf he hs]
    cases Config.freePeriphMove s.clock with
    | stay => exact .inl rfl
    | complete x y => exact .inr ⟨x, y, rfl⟩

/-! ## A command issued to an idle block (R70, R112) -/

theorem hostCommand_decoded {w : CmdWord} {i : Instr} {s : State}
    (k : Instr → State → Host.Outcome State Fault Refusal) (hp : s.ph = .idle) (hw : decode w = .ok i) :
    hostCommand w k s = k i s := by simp [hostCommand, hp, hw]

/-- Settles O40: the head of HOST's queue is taken and the decoded command executed. -/
theorem stepRunsDecoded : Obligations.StepRunsDecoded := by
  intro w i s rest hp hh hw
  have hissue : step s = hostCommand w exec { s with host := rest } := by simp only [step, hh, hostStep]
  rw [hissue]
  exact hostCommand_decoded exec hp hw

end Sys2Proof.Machine
end

-- ==== What WRBLK and RDBLK move between DATA and BUF ====
section
/-! PROOFS. What WRBLK and RDBLK move between DATA and BUF, obligations O28 and O34. `transfers` keeps, of the port events,
the accesses of DATA and SEQ's accesses of BUF; each micro-sequence gets one lemma that gives its transfers in order, and
the data loops get theirs by induction on the bytes left. -/

namespace Sys2Proof.Machine

/-! ## The transfers among the port events -/

/-- An access of DATA, or one of SEQ to BUF. -/
def isTransfer : PortEvent → Bool
  | .ioWrite .data _ => true
  | .ioRead .data _ => true
  | .bufRead _ _ => true
  | .bufWrite _ _ => true
  | _ => false

/-- The transfers among port events with the newest first, oldest first. -/
def transfers (es : List PortEvent) : List PortEvent := (es.filter isTransfer).reverse

theorem transfers_append (es fs : List PortEvent) : transfers (es ++ fs) = transfers fs ++ transfers es := by
  simp [transfers]

/-- A reader of port events that looks at transfers only reads the same from the transfers, in order. -/
theorem filterMap_transfers {α : Type} (f : PortEvent → Option α) (hf : ∀ e, isTransfer e = false → f e = none)
    (es : List PortEvent) : (transfers es).filterMap f = (es.filterMap f).reverse := by
  rw [transfers, List.filterMap_reverse, List.filterMap_filter]
  congr 2
  funext e
  cases h : isTransfer e with
  | true => rfl
  | false => exact (hf e h).symm

theorem dataBytes_transfers (es : List PortEvent) : dataBytes (transfers es) = (dataBytes es).reverse := by
  refine filterMap_transfers _ (fun e he => ?_) es
  split
  · cases he
  · rfl

theorem dataReads_transfers (es : List PortEvent) : dataReads (transfers es) = (dataReads es).reverse := by
  refine filterMap_transfers _ (fun e he => ?_) es
  split
  · cases he
  · rfl

theorem bufReads_transfers (es : List PortEvent) : bufReads (transfers es) = (bufReads es).reverse := by
  refine filterMap_transfers _ (fun e he => ?_) es
  split
  · cases he
  · rfl

theorem bufWrites_transfers (es : List PortEvent) : bufWrites (transfers es) = (bufWrites es).reverse := by
  refine filterMap_transfers _ (fun e he => ?_) es
  split
  · cases he
  · rfl

/-- From `s` to `t` the transfers are `ms`, oldest first. -/
def Moved (s t : State) (ms : List PortEvent) : Prop := transfers t.trace = transfers s.trace ++ ms

theorem Moved.of_trace {s t : State} (h : t.trace = s.trace) : Moved s t [] := by rw [Moved, h, List.append_nil]

theorem transfers_singleton_of_transfer {e : PortEvent} (he : isTransfer e = true) : transfers [e] = [e] := by
  simp [transfers, he]

theorem transfers_singleton_of_other {e : PortEvent} (he : isTransfer e = false) : transfers [e] = [] := by
  simp [transfers, he]

/-- One port event, a transfer. -/
theorem Moved.of_transfer {s t : State} {e : PortEvent} (he : isTransfer e = true) (h : t.trace = e :: s.trace) :
    Moved s t [e] := by
  rw [Moved, h, ← List.singleton_append, transfers_append, transfers_singleton_of_transfer he]

/-- One port event, no transfer. -/
theorem Moved.of_other {s t : State} {e : PortEvent} (he : isTransfer e = false) (h : t.trace = e :: s.trace) :
    Moved s t [] := by
  rw [Moved, h, ← List.singleton_append, transfers_append, transfers_singleton_of_other he]

theorem Moved.trans {s t u : State} {ms ns : List PortEvent} (h : Moved s t ms) (k : Moved t u ns) :
    Moved s u (ms ++ ns) := by
  rw [Moved, k, h, List.append_assoc]

/-- Accesses that move nothing, before others. -/
theorem Moved.quiet_trans {s t u : State} {ms : List PortEvent} (h : Moved s t []) (k : Moved t u ms) : Moved s u ms :=
  h.trans k

/-- Accesses that move nothing, after others. -/
theorem Moved.trans_quiet {s t u : State} {ms : List PortEvent} (h : Moved s t ms) (k : Moved t u []) : Moved s u ms := by
  have := h.trans k
  rwa [List.append_nil] at this

theorem Moved.events {s t : State} {ms evs : List PortEvent} (h : Moved s t ms) (ht : t.trace = evs ++ s.trace) :
    transfers evs = ms := by
  rw [Moved, ht, transfers_append] at h
  exact List.append_cancel_left h

/-! ## The micro-sequences -/

section
variable (s : State)

theorem doTrigger_moved (p : Phase) (w : Byte) : Moved s (doTrigger p w s) [] := by
  obtain ⟨-, -, -, -, -, -, -, -, -, -, -, -, -, -, -, htrace⟩ := doTrigger_spec p w s
  exact .of_other rfl htrace

theorem doPoll_moved (p : Phase) : Moved s (doPoll p s).2 [] := by
  have htrace : (doPoll p s).2.trace = .poll (enter p s).flag :: s.trace := by simp [doPoll_eq]
  exact .of_other rfl htrace

theorem readStat_moved : Moved s (readStat s).2 [] := by
  unfold readStat
  split
  · exact Moved.of_other rfl (logEvent_trace s _)
  · exact Moved.of_other rfl (logEvent_trace _ _)

theorem doStatus_moved (p : Phase) : Moved s (doStatus p s) [] :=
  (Moved.of_trace (enter_trace p s)).quiet_trans (readStat_moved _)

theorem waitLoop_moved (p : Phase) (n : Nat) : Moved s (waitLoop p n s).2 [] := by
  induction n generalizing s with
  | zero => exact .of_trace rfl
  | succ n ih =>
    simp only [waitLoop]
    split
    · exact doPoll_moved s p
    · exact (doPoll_moved s p).quiet_trans (ih _)

theorem triggerWait_moved (p q : Phase) (w : Byte) : Moved s (wait p (doTrigger q w s)).2 [] :=
  (doTrigger_moved s q w).quiet_trans (waitLoop_moved _ p _)

theorem stopSeq_moved : Moved s (stopSeq s).2 [] := triggerWait_moved s .sWait .sTrig _

theorem doWriteData_moved (p : Phase) (v : Byte) : Moved s (doWriteData p v s) [.ioWrite .data v] :=
  .of_transfer rfl (doWriteData_trace p v s)

/-- TXBYTE writes its byte to DATA, whatever becomes of it (R170). -/
theorem txByte_moved (v : Byte) (c : TxCodes) : Moved s (txByte v c s).2 [.ioWrite .data v] := by
  have hwait : Moved s (txWait v s).2 [.ioWrite .data v] :=
    (doWriteData_moved s .tData v).trans_quiet (triggerWait_moved _ .tWait .tTrig _)
  cases he : (txWait v s).1 with
  | timeout => rw [txByte_timeout v c s he]; exact hwait
  | ok => rw [txByte_ok v c s he]; exact hwait.trans_quiet (doStatus_moved _ .tStat)

/-- `n` address bytes written to DATA. -/
def addressSends (dev : BitVec 7) (dir : Dir) (n : Nat) : List PortEvent :=
  List.replicate n (.ioWrite .data (addrByte dev dir))

theorem addressAttempt_moved (dev : BitVec 7) (dir : Dir) (c : AddrCodes) :
    ∃ n, Moved s (addressAttempt dev dir c s).2 (addressSends dev dir n) := by
  have hwait : Moved s (startWait s).2 [] := triggerWait_moved s .aStartWait .aStart _
  have hstat : Moved s (startStat s) [] := hwait.quiet_trans (doStatus_moved _ .aStartStat)
  have haddr : Moved s (addrWait dev dir (startStat s)).2 (addressSends dev dir 1) :=
    hstat.quiet_trans ((doWriteData_moved _ .aAddrData _).trans_quiet (triggerWait_moved _ .aAddrWait .aAddrTrig _))
  cases he : (startWait s).1 with
  | timeout => rw [addressAttempt_startTimeout _ _ c s he]; exact ⟨0, hwait⟩
  | ok =>
    cases hs : isStartStatus (startStat s).cfg.status (startStat s).st with
    | false => rw [addressAttempt_startStatus _ _ c s he hs]; exact ⟨0, hstat⟩
    | true =>
      cases ha : (addrWait dev dir (startStat s)).1 with
      | timeout => rw [addressAttempt_addrTimeout _ _ c s he hs ha]; exact ⟨1, haddr⟩
      | ok => rw [addressAttempt_addrOk _ _ c s he hs ha]; exact ⟨1, haddr.trans_quiet (doStatus_moved _ .aAddrStat)⟩

theorem addressLoop_moved (dev : BitVec 7) (dir : Dir) (c : AddrCodes) (n : Nat) :
    ∃ k, Moved s (addressLoop dev dir c n s).2 (addressSends dev dir k) := by
  induction n using Nat.strong_induction_on generalizing s with | _ n ih
  obtain ⟨j, hattempt⟩ := addressAttempt_moved s dev dir c
  cases h : (addressAttempt dev dir c s).1 with
  | some code => rw [addressLoop_failed _ _ c s n h]; exact ⟨j, hattempt⟩
  | none =>
    by_cases hn : (addressAttempt dev dir c s).2.st = nackOf (addressAttempt dev dir c s).2.cfg.status dir ∧ n ≠ 0
    · obtain ⟨hnack, hpos⟩ := hn
      obtain ⟨m, rfl⟩ := Nat.exists_eq_succ_of_ne_zero hpos
      obtain ⟨k, hrest⟩ := ih m (Nat.lt_succ_self m) (addressAttempt dev dir c s).2.nextAttempt
      have hnext : Moved (addressAttempt dev dir c s).2 (addressAttempt dev dir c s).2.nextAttempt [] := .of_trace rfl
      rw [addressLoop_retry _ _ c s m h hnack]
      refine ⟨j + k, ?_⟩
      rw [addressSends, List.replicate_add]
      exact hattempt.trans (hnext.quiet_trans hrest)
    · rw [addressLoop_verdict _ _ c s n h hn]
      exact ⟨j, hattempt⟩

/-- ADDRESS writes nothing but address bytes to DATA (R165). -/
theorem address_moved (dev : BitVec 7) (dir : Dir) (c : AddrCodes) :
    ∃ n, Moved s (address dev dir c s).2 (addressSends dev dir n) := addressLoop_moved _ dev dir c _

end

theorem readers_addressSends (dev : BitVec 7) (dir : Dir) (n : Nat) :
    dataBytes (addressSends dev dir n) = List.replicate n (addrByte dev dir) ∧ bufReads (addressSends dev dir n) = [] ∧
      dataReads (addressSends dev dir n) = [] ∧ bufWrites (addressSends dev dir n) = [] := by
  induction n with
  | zero => exact ⟨rfl, rfl, rfl, rfl⟩
  | succ n ih =>
    obtain ⟨hsent, hread, hreceived, hwritten⟩ := ih
    exact ⟨congrArg (addrByte dev dir :: ·) hsent, hread, hreceived, hwritten⟩

/-! ## A block of bytes in BUF -/

/-- BUF holds the bytes at `k`, `k + 1`, ... -/
def Memory.Holds (m : Memory) (k : Nat) (bs : List Byte) : Prop :=
  ∀ i (h : i < bs.length), Memory.read m (k + i) = some bs[i]

theorem Memory.holds_nil (m : Memory) (k : Nat) : Memory.Holds m k [] := nofun

theorem Memory.holds_cons {m : Memory} {k : Nat} {b : Byte} {bs : List Byte} (hb : Memory.read m k = some b)
    (hbs : Memory.Holds m (k + 1) bs) : Memory.Holds m k (b :: bs)
  | 0, _ => hb
  | i + 1, h => by
    have hat := hbs i (Nat.lt_of_succ_lt_succ h)
    rw [Nat.add_right_comm] at hat
    exact hat

/-- BUF after the bytes have been written at `k`, `k + 1`, ... in order. -/
def Memory.writeAll : Memory → Nat → List Byte → Memory
  | m, _, [] => m
  | m, k, b :: bs => Memory.writeAll (Memory.write m k b) (k + 1) bs

theorem Memory.read_writeAll_other (bs : List Byte) (m : Memory) (k a : Nat) (h : a < k ∨ k + bs.length ≤ a) :
    Memory.read (Memory.writeAll m k bs) a = Memory.read m a := by
  induction bs generalizing m k with
  | nil => rfl
  | cons b bs ih =>
    rw [List.length_cons] at h
    rw [Memory.writeAll, ih _ _ (by omega), Memory.read_write_other _ _ _ _ (by omega)]

theorem Memory.writeAll_holds (bs : List Byte) (m : Memory) (k : Nat) :
    Memory.Holds (Memory.writeAll m k bs) k bs := by
  induction bs generalizing m k with
  | nil => exact Memory.holds_nil m k
  | cons b bs ih =>
    refine Memory.holds_cons ?_ (ih _ _)
    rw [Memory.writeAll, Memory.read_writeAll_other bs _ _ _ (.inl (Nat.lt_succ_self k)), Memory.read_write_same]

/-! ## The data loop of WRBLK (R220, R221) -/

/-- The transfers that fetch the bytes from BUF at `k`, `k + 1`, ... and send each as it is fetched. -/
def sentBytes : Nat → List Byte → List PortEvent
  | _, [] => []
  | k, b :: bs => .bufRead k b :: .ioWrite .data b :: sentBytes (k + 1) bs

theorem dataBytes_sentBytes (k : Nat) (bs : List Byte) : dataBytes (sentBytes k bs) = bs := by
  induction bs generalizing k with
  | nil => rfl
  | cons b bs ih => exact congrArg (b :: ·) (ih (k + 1))

theorem bufReads_sentBytes (k : Nat) (bs : List Byte) :
    bufReads (sentBytes k bs) = (List.range' k bs.length).zip bs := by
  induction bs generalizing k with
  | nil => rfl
  | cons b bs ih => exact congrArg ((k, b) :: ·) (ih (k + 1))

theorem doFetch_moved {s t : State} (h : doFetch s = some t) :
    Memory.read s.buf s.idx.toNat = some t.txb ∧ Moved s t [.bufRead s.idx.toNat t.txb] := by
  cases hv : Memory.read s.buf s.idx.toNat with
  | none => rw [doFetch_none s hv] at h; cases h
  | some v =>
    rw [doFetch_some s v hv] at h
    cases h
    exact ⟨rfl, (Moved.of_trace (enter_trace .tFetch s)).quiet_trans (.of_transfer rfl rfl)⟩

/-- One byte of the data loop: it is read from BUF at IDX and sent. -/
theorem sendFetched_moved {s t : State} (h : doFetch s = some t) :
    Moved s (sendFetched t).2 (sentBytes s.idx.toNat [t.txb]) := by
  obtain ⟨-, hfetch⟩ := doFetch_moved h
  exact hfetch.trans (txByte_moved t t.txb t.cfg.codes.wbData)

/-- The data loop with `n` bytes left sends the next bytes of BUF, all of them if it ends with 0. -/
theorem writeLoop_moved (n : Nat) (s : State) (hn : s.idx.toNat + n = s.len.toNat) {c : Byte}
    (h : (writeLoop n s).1 = .code c) :
    ∃ bs : List Byte, bs.length ≤ n ∧ Memory.Holds s.buf s.idx.toNat bs ∧
      Moved s (writeLoop n s).2 (sentBytes s.idx.toNat bs) ∧ (c = 0 → bs.length = n) := by
  induction n generalizing s with
  | zero => exact ⟨[], Nat.le_refl _, Memory.holds_nil _ _, .of_trace rfl, fun _ => rfl⟩
  | succ n ih =>
    cases hf : doFetch s with
    | none => rw [writeLoop_noFetch n hf] at h; cases h
    | some t =>
      obtain ⟨hread, -⟩ := doFetch_moved hf
      have hsend := sendFetched_moved hf
      rw [writeLoop_fetch n hf] at h ⊢
      split at h
      · rename_i hfail
        rw [if_pos hfail]
        refine ⟨[t.txb], by simp, Memory.holds_cons hread (Memory.holds_nil _ _), hsend, fun hc => ?_⟩
        cases h
        exact absurd hc hfail
      · rename_i hsent
        rw [if_neg hsent]
        have hb := sendFetched_busOnly t
        have hfetch := doFetch_busOnly hf
        have hidx : (sendFetched t).2.nextByte.idx.toNat = s.idx.toNat + 1 := by
          have hkeep : (sendFetched t).2.idx = s.idx := hb.idx.trans hfetch.idx
          rw [State.nextByte, hkeep]
          bv_omega
        have hlen : (sendFetched t).2.nextByte.len = s.len := hb.len.trans hfetch.len
        have hbuf : (sendFetched t).2.nextByte.buf = s.buf := hb.buf.trans hfetch.buf
        obtain ⟨bs, hle, hholds, hmoved, hall⟩ := ih (sendFetched t).2.nextByte (by rw [hidx, hlen]; omega) h
        rw [hidx] at hholds hmoved
        rw [hbuf] at hholds
        have hnext : Moved (sendFetched t).2 (sendFetched t).2.nextByte [] := .of_trace rfl
        refine ⟨t.txb :: bs, Nat.succ_le_succ hle, Memory.holds_cons hread hholds, hsend.trans (hnext.quiet_trans hmoved),
          fun hc => congrArg (· + 1) (hall hc)⟩

/-! ## WRBLK (R220, R221) -/

section
variable (s : State)

theorem wbAddress_moved : ∃ n, Moved s (wbAddress s).2 (addressSends s.dev .write n) :=
  address_moved (s.inSeg .wbAddr) s.dev .write s.cfg.codes.wb

theorem wbRegByte_moved {n : Nat} (h : Moved s (wbAddress s).2 (addressSends s.dev .write n)) :
    Moved s (wbRegByte s).2 (addressSends s.dev .write n ++ [.ioWrite .data s.rega]) := by
  have hsend : Moved (wbAddress s).2 (wbRegByte s).2 [.ioWrite .data (wbAddress s).2.rega] :=
    txByte_moved ((wbAddress s).2.inSeg .wbReg) _ _
  rw [wbAddress_rega] at hsend
  exact h.trans hsend

/-- What WRBLK moves: address bytes alone, or address bytes, the register address and the first bytes of BUF, all LEN of
them if it ends with 0. -/
theorem runWrblk_moved {c : Byte} (h : (runWrblk s).1 = .code c) :
    ∃ n, (Moved s (runWrblk s).2 (addressSends s.dev .write n) ∧ c ≠ 0) ∨
      ∃ bs : List Byte, bs.length ≤ s.len.toNat ∧ Memory.Holds s.buf 0 bs ∧ (c = 0 → bs.length = s.len.toNat) ∧
        Moved s (runWrblk s).2 (addressSends s.dev .write n ++ .ioWrite .data s.rega :: sentBytes 0 bs) := by
  obtain ⟨n, haddr⟩ := wbAddress_moved s
  have hreg := wbRegByte_moved s haddr
  refine ⟨n, ?_⟩
  rw [runWrblk_eq] at h ⊢
  split at h
  · rename_i hfail
    rw [if_pos hfail]
    cases h
    exact .inl ⟨haddr, hfail⟩
  rename_i hdone
  rw [if_neg hdone]
  split at h
  · rename_i hfail
    rw [if_pos hfail]
    cases h
    exact .inr ⟨[], Nat.zero_le _, Memory.holds_nil _ _, fun hc => absurd hc hfail, hreg⟩
  rename_i hsent
  rw [if_neg hsent]
  obtain ⟨bs, hle, hholds, hmoved, hall⟩ := writeLoop_moved _ ((wbRegByte s).2.startLoop .wbData) (Nat.zero_add _) h
  rw [State.startLoop_len, wbRegByte_len] at hle hall
  have hholds' : Memory.Holds (wbRegByte s).2.buf 0 bs := hholds
  rw [wbRegByte_buf] at hholds'
  have hstart : Moved (wbRegByte s).2 ((wbRegByte s).2.startLoop .wbData) [] := .of_trace rfl
  have hdata := hreg.trans (hstart.quiet_trans hmoved)
  rw [List.append_assoc] at hdata
  exact .inr ⟨bs, hle, hholds', hall, hdata⟩

end

theorem accepted_moved (i : Instr) (s : State) : Moved s (accepted i s) [] := .of_other rfl (accepted_trace s i)

theorem finish_moved (c : Byte) (s : State) : Moved s (finish c s) [] :=
  .of_other (e := .finished (some c)) rfl rfl

/-- Settles O28: BUF is read, and DATA written, in the order that `runWrblk_moved` gives. -/
theorem wrblkReadsInOrder : Obligations.WrblkReadsInOrder := by
  intro dev reg len s t evs h htrace
  obtain ⟨c, hc, rfl⟩ := wrblkOutcome_next (exec_next h)
  obtain ⟨n, hcase⟩ := runWrblk_moved (accepted (.wrblk dev reg len) s) hc
  obtain ⟨hsent, hread, -, -⟩ := readers_addressSends dev .write n
  have hwhole {ms : List PortEvent} (hm : Moved (accepted (.wrblk dev reg len) s) (runWrblk _).2 ms) :
      transfers evs = ms :=
    ((accepted_moved _ s).quiet_trans (hm.trans_quiet (finish_moved c _))).events htrace
  rw [← bufReads_transfers, ← dataBytes_transfers]
  rcases hcase with ⟨hmoved, hne⟩ | ⟨bs, hle, hholds, hall, hmoved⟩
  · rw [hwhole hmoved]
    exact ⟨0, [], n, Nat.zero_le _, rfl, nofun, hread, .inl ⟨hsent, rfl⟩, fun hz => absurd hz hne⟩
  · rw [accepted_buf] at hholds
    rw [hwhole hmoved]
    refine ⟨bs.length, bs, n, hle, rfl, fun i hi => ?_, ?_, .inr ?_, fun hz _ => hall hz⟩
    · have hat := hholds i hi
      rwa [Nat.zero_add] at hat
    · rw [bufReads_append, accepted_wrblk_dev, hread, List.range_eq_range']
      exact bufReads_sentBytes 0 bs
    · rw [dataBytes_append, accepted_wrblk_dev, hsent]
      exact congrArg (List.replicate n (addrByte dev .write) ++ reg :: ·) (dataBytes_sentBytes 0 bs)

/-! ## The receive loop of RDBLK (R231) -/

/-- The transfers that read the bytes from DATA and store each in BUF, at `k`, `k + 1`, ... -/
def storedBytes : Nat → List Byte → List PortEvent
  | _, [] => []
  | k, b :: bs => .ioRead .data b :: .bufWrite k b :: storedBytes (k + 1) bs

theorem dataReads_storedBytes (k : Nat) (bs : List Byte) : dataReads (storedBytes k bs) = bs := by
  induction bs generalizing k with
  | nil => rfl
  | cons b bs ih => exact congrArg (b :: ·) (ih (k + 1))

theorem bufWrites_storedBytes (k : Nat) (bs : List Byte) :
    bufWrites (storedBytes k bs) = (List.range' k bs.length).zip bs := by
  induction bs generalizing k with
  | nil => rfl
  | cons b bs ih => exact congrArg ((k, b) :: ·) (ih (k + 1))

theorem Moved.noBytes {s t : State} {ms : List PortEvent} {k : Nat} (h : Moved s t ms) :
    Moved s t (ms ++ storedBytes k []) := by
  rw [storedBytes, List.append_nil]
  exact h

/-- The byte that a receive request reads from DATA. -/
def receivedByte (s : State) : Byte := (doReceive s).rxb

section
variable (s : State)

theorem doReceive_moved : Moved s (doReceive s) [.ioRead .data (receivedByte s)] :=
  (Moved.of_trace (enter_trace .rData s)).quiet_trans (.of_transfer rfl rfl)

theorem doReceive_buf : (doReceive s).buf = s.buf := (enter_busOnly .rData s).buf

/-- One byte of the receive loop: it is read from DATA and stored at IDX. -/
theorem doReceive_doStore_moved :
    Moved s (doStore (doReceive s)) (storedBytes s.idx.toNat [receivedByte s]) ∧
      (doStore (doReceive s)).buf = Memory.write s.buf s.idx.toNat (receivedByte s) := by
  obtain ⟨hbuf, -, htrace, -⟩ := doStore_spec (doReceive s)
  rw [doReceive_idx] at hbuf htrace
  rw [doReceive_buf] at hbuf
  exact ⟨(doReceive_moved s).trans (.of_transfer rfl htrace), hbuf⟩

theorem receiveWait_moved : Moved s (receiveWait s).2 [] := triggerWait_moved s .rWait .rTrig _

theorem receiveStat_moved : Moved s (receiveStat s) [] := (receiveWait_moved s).quiet_trans (doStatus_moved _ .rStat)

end

/-- The receive loop with `n` bytes left stores the bytes it reads from DATA from IDX on, and changes BUF no further. -/
theorem readLoop_moved (n : Nat) (s : State) (hn : s.idx.toNat + n = s.len.toNat) :
    ∃ bs : List Byte, bs.length ≤ n ∧ Moved s (readLoop n s) (storedBytes s.idx.toNat bs) ∧
      (readLoop n s).buf = Memory.writeAll s.buf s.idx.toNat bs := by
  induction n generalizing s with
  | zero => exact ⟨[], Nat.le_refl _, .of_trace rfl, rfl⟩
  | succ n ih =>
    cases he : (receiveWait s).1 with
    | timeout =>
      rw [readLoop_timeout s n he]
      exact ⟨[], Nat.zero_le _, receiveWait_moved s, (receiveWait_busOnly s).buf⟩
    | ok =>
      have hb := receiveStat_busOnly s
      have hstat := receiveStat_moved s
      rw [readLoop_ok s n he]
      split
      · obtain ⟨hstore, hwrite⟩ := doReceive_doStore_moved (receiveStat s)
        obtain ⟨hidx, hlen, -⟩ := doReceive_doStore_keeps (receiveStat s)
        rw [hb.idx] at hstore hwrite hidx
        rw [hb.len] at hlen
        rw [hb.buf] at hwrite
        have hnext : (doStore (doReceive (receiveStat s))).idx.toNat = s.idx.toNat + 1 := by
          rw [hidx]
          bv_omega
        obtain ⟨bs, hle, hmoved, hbuf⟩ := ih (doStore (doReceive (receiveStat s))) (by rw [hnext, hlen]; omega)
        rw [hnext] at hmoved hbuf
        rw [hwrite] at hbuf
        exact ⟨receivedByte (receiveStat s) :: bs, Nat.succ_le_succ hle, hstat.quiet_trans (hstore.trans hmoved), hbuf⟩
      · exact ⟨[], Nat.zero_le _, hstat, hb.buf⟩

/-! ## RDBLK (R230 to R233) -/

/-- Transfers that are all writes of DATA: no byte is received and BUF is not touched. -/
def SendsOnly (ms : List PortEvent) : Prop := dataReads ms = [] ∧ bufWrites ms = []

theorem SendsOnly.append {ms ns : List PortEvent} (h : SendsOnly ms) (k : SendsOnly ns) : SendsOnly (ms ++ ns) := by
  obtain ⟨hreads, hwrites⟩ := h
  obtain ⟨kreads, kwrites⟩ := k
  exact ⟨by rw [dataReads_append, hreads, kreads]; rfl, by rw [bufWrites_append, hwrites, kwrites]; rfl⟩

theorem addressSends_sendsOnly (dev : BitVec 7) (dir : Dir) (n : Nat) : SendsOnly (addressSends dev dir n) := by
  obtain ⟨-, -, hreads, hwrites⟩ := readers_addressSends dev dir n
  exact ⟨hreads, hwrites⟩

section
variable (s : State)

theorem rbAddress_moved : ∃ ms, SendsOnly ms ∧ Moved s (rbAddress s).2 ms := by
  obtain ⟨n, haddr⟩ := address_moved s.readStart s.dev .write s.cfg.codes.rbA
  exact ⟨_, addressSends_sendsOnly _ _ n, haddr⟩

theorem rbRegByte_moved : ∃ ms, SendsOnly ms ∧ Moved s (rbRegByte s).2 ms := by
  obtain ⟨ms, hms, haddr⟩ := rbAddress_moved s
  have hsend := txByte_moved ((rbAddress s).2.inSeg .rbReg) (rbAddress s).2.rega (rbAddress s).2.cfg.codes.rbReg
  exact ⟨_, hms.append ⟨rfl, rfl⟩, haddr.trans hsend⟩

theorem rbReaddress_moved : ∃ ms, SendsOnly ms ∧ Moved s (rbReaddress s).2 ms := by
  obtain ⟨ms, hms, hreg⟩ := rbRegByte_moved s
  obtain ⟨n, haddr⟩ := address_moved ((rbRegByte s).2.inSeg .rbB) (rbRegByte s).2.dev .read (rbRegByte s).2.cfg.codes.rbB
  exact ⟨_, hms.append (addressSends_sendsOnly _ _ n), hreg.trans haddr⟩

theorem rbAddress_buf : (rbAddress s).2.buf = s.buf := (address_busOnly s.dev .write s.cfg.codes.rbA s.readStart).buf

theorem rbRegByte_buf : (rbRegByte s).2.buf = s.buf :=
  (txByte_busOnly _ _ ((rbAddress s).2.inSeg .rbReg)).buf.trans (rbAddress_buf s)

theorem rbReaddress_buf : (rbReaddress s).2.buf = s.buf :=
  (address_busOnly _ .read _ ((rbRegByte s).2.inSeg .rbB)).buf.trans (rbRegByte_buf s)

/-- The phases of RDBLK before its stop: after what they send, some bytes are received and stored from index 0 on. -/
theorem readPhases_moved :
    ∃ (ms : List PortEvent) (bs : List Byte), SendsOnly ms ∧ bs.length ≤ s.len.toNat ∧
      Moved s (readPhases s) (ms ++ storedBytes 0 bs) ∧ (readPhases s).buf = Memory.writeAll s.buf 0 bs := by
  obtain ⟨ms, hms, haddr⟩ := rbAddress_moved s
  obtain ⟨ns, hns, hreg⟩ := rbRegByte_moved s
  obtain ⟨ls, hls, hread⟩ := rbReaddress_moved s
  rw [readPhases_eq]
  split
  · exact ⟨ms, [], hms, Nat.zero_le _, (haddr.trans_quiet (.of_trace rfl)).noBytes, rbAddress_buf s⟩
  split
  · exact ⟨ns, [], hns, Nat.zero_le _, (hreg.trans_quiet (.of_trace rfl)).noBytes, rbRegByte_buf s⟩
  split
  · exact ⟨ls, [], hls, Nat.zero_le _, (hread.trans_quiet (.of_trace rfl)).noBytes, rbReaddress_buf s⟩
  · obtain ⟨bs, hle, hloop, hbuf⟩ := readLoop_moved _ ((rbReaddress s).2.startLoop .rbData) (Nat.zero_add _)
    have hstart : Moved (rbReaddress s).2 ((rbReaddress s).2.startLoop .rbData) [] := .of_trace rfl
    have hkeep : ((rbReaddress s).2.startLoop .rbData).buf = s.buf := rbReaddress_buf s
    rw [hkeep] at hbuf
    rw [State.startLoop_len, rbReaddress_len] at hle
    exact ⟨ls, bs, hls, hle, hread.trans (hstart.quiet_trans hloop), hbuf⟩

theorem runRdblk_moved {ms : List PortEvent} (h : Moved s (readPhases s) ms) : Moved s (runRdblk s) ms := by
  have hseg : Moved (readPhases s) ((readPhases s).inSeg .rbStop) [] := .of_trace rfl
  exact (h.trans_quiet (hseg.quiet_trans (stopSeq_moved _))).trans_quiet (finish_moved _ _)

theorem runRdblk_buf : (runRdblk s).buf = (readPhases s).buf := by
  rw [runRdblk_eq, finish_buf]
  exact (stopSeq_busOnly ((readPhases s).inSeg .rbStop)).buf

end

/-- Settles O34: the receive loop's transfers and BUF after it; the stop moves nothing. -/
theorem rdblkBuffer : Obligations.RdblkBuffer := by
  intro dev reg len s t evs h htrace
  have hrun := Host.Outcome.next.inj (exec_next h)
  obtain ⟨ms, bs, ⟨hreads, hwrites⟩, hle, hmoved, hbuf⟩ := readPhases_moved (accepted (.rdblk dev reg len) s)
  have hphases := runRdblk_moved _ hmoved
  have htbuf : t.buf = Memory.writeAll s.buf 0 bs := by rw [← hrun, runRdblk_buf, hbuf, accepted_buf]
  rw [hrun] at hphases
  rw [← bufWrites_transfers, ← dataReads_transfers, ((accepted_moved _ s).quiet_trans hphases).events htrace, htbuf]
  refine ⟨bs, hle, ?_, ?_, fun i hi => ?_, fun a ha => ?_⟩
  · rw [bufWrites_append, hwrites, List.range_eq_range']
    exact bufWrites_storedBytes 0 bs
  · rw [dataReads_append, hreads]
    exact dataReads_storedBytes 0 bs
  · have hat := Memory.writeAll_holds bs s.buf 0 i hi
    rwa [Nat.zero_add] at hat
  · exact Memory.read_writeAll_other bs s.buf 0 a (.inr (by omega))

end Sys2Proof.Machine
end

-- ==== The command word: decoder, encoder and acceptance ====
section
/-! PROOFS. The command word, obligations O1 to O6 and O42. A word is its header (OP and Z) and 24 operand bits (R110), and
the operand bits are the parts its format names (R111). A row's mask, the encoder's word and R121's legality are each read
on those parts; `Decodes` says once which words stand for which command. -/

namespace Sys2Proof

/-! ## A word and its parts (R110, R111) -/

theorem append_eq_append_iff {m n : Nat} {a c : BitVec m} {b d : BitVec n} : a ++ b = c ++ d ↔ a = c ∧ b = d := by
  refine ⟨fun h => ⟨?_, ?_⟩, fun ⟨hac, hbd⟩ => hac ▸ hbd ▸ rfl⟩
  · simpa only [BitVec.extractLsb'_append_eq_left] using congrArg (BitVec.extractLsb' n m) h
  · simpa only [BitVec.extractLsb'_append_eq_right] using congrArg (BitVec.extractLsb' 0 n) h

theorem ofBool_getLsbD {n : Nat} (x : BitVec n) (k : Nat) : BitVec.ofBool (x.getLsbD k) = x.extractLsb' k 1 := by
  ext i hi
  obtain rfl : i = 0 := by omega
  simp

theorem ofBool_eq_zero_iff {b : Bool} : BitVec.ofBool b = 0#1 ↔ b = false := BitVec.ofBool_eq_iff_eq (b' := false)

/-- The word has this OP, and Z is 0000 (R110). -/
def HasHeader (w : CmdWord) (op : BitVec 4) : Prop := fieldOP w = op ∧ w.extractLsb' 24 4 = 0

/-- Fields A, B and C of a word. -/
def operandPart (w : CmdWord) : BitVec 24 := w.extractLsb' 0 24

section
variable (w : CmdWord)

theorem header_append_operandPart : (fieldOP w ++ w.extractLsb' 24 4) ++ operandPart w = w := by
  have hheader : fieldOP w ++ w.extractLsb' 24 4 = w.extractLsb' 24 8 :=
    BitVec.extractLsb'_append_extractLsb'_eq_extractLsb' rfl
  have hword : w.extractLsb' 24 8 ++ operandPart w = w.extractLsb' 0 32 :=
    BitVec.extractLsb'_append_extractLsb'_eq_extractLsb' rfl
  rw [hheader, hword, BitVec.extractLsb'_eq_self]

theorem operandPart_formatK : operandPart w = (w.extractLsb' 17 7 ++ BitVec.ofBool (fieldPU w)) ++ fieldKHZ w := by
  have hA : w.extractLsb' 17 7 ++ w.extractLsb' 16 1 = w.extractLsb' 16 8 :=
    BitVec.extractLsb'_append_extractLsb'_eq_extractLsb' rfl
  have hABC : w.extractLsb' 16 8 ++ fieldKHZ w = operandPart w :=
    BitVec.extractLsb'_append_extractLsb'_eq_extractLsb' rfl
  rw [fieldPU, ofBool_getLsbD, hA, hABC]

/-- Field A of formats D and B is W[23] and DEV. -/
theorem bit23_append_fieldDEV : BitVec.ofBool (w.getLsbD 23) ++ fieldDEV w = w.extractLsb' 16 8 := by
  rw [ofBool_getLsbD]
  exact BitVec.extractLsb'_append_extractLsb'_eq_extractLsb' rfl

theorem operandPart_formatD :
    operandPart w = (BitVec.ofBool (w.getLsbD 23) ++ fieldDEV w) ++ w.extractLsb' 0 16 := by
  have hABC : w.extractLsb' 16 8 ++ w.extractLsb' 0 16 = operandPart w :=
    BitVec.extractLsb'_append_extractLsb'_eq_extractLsb' rfl
  rw [bit23_append_fieldDEV, hABC]

theorem operandPart_formatV : operandPart w = w.extractLsb' 8 16 ++ fieldC w := by
  have hABC : w.extractLsb' 8 16 ++ fieldC w = operandPart w :=
    BitVec.extractLsb'_append_extractLsb'_eq_extractLsb' rfl
  rw [hABC]

theorem operandPart_formatB :
    operandPart w = ((BitVec.ofBool (w.getLsbD 23) ++ fieldDEV w) ++ fieldREGA w) ++ fieldC w := by
  have hAB : w.extractLsb' 16 8 ++ fieldREGA w = w.extractLsb' 8 16 :=
    BitVec.extractLsb'_append_extractLsb'_eq_extractLsb' rfl
  rw [bit23_append_fieldDEV, hAB, operandPart_formatV]

end

/-! ## The encoder's word (R111) -/

variable {w : CmdWord}

theorem encode_eq_iff {i : Instr} : encode i = w ↔ HasHeader w i.opcode ∧ operandPart w = i.operandBits := by
  conv_lhs => rw [← header_append_operandPart w, encode, append_eq_append_iff, append_eq_append_iff]
  exact and_congr (and_congr eq_comm eq_comm) eq_comm

theorem operandPart_eq_configure_iff {khz : BitVec 16} {pu : Bool} :
    operandPart w = (Instr.configure khz pu).operandBits ↔
      w.extractLsb' 17 7 = 0 ∧ fieldPU w = pu ∧ fieldKHZ w = khz := by
  rw [operandPart_formatK, Instr.operandBits, append_eq_append_iff, append_eq_append_iff, BitVec.ofBool_eq_iff_eq, and_assoc]
  exact Iff.rfl

theorem operandPart_eq_beginTrans_iff {dev : BitVec 7} :
    operandPart w = (Instr.beginTrans dev).operandBits ↔
      w.getLsbD 23 = false ∧ fieldDEV w = dev ∧ w.extractLsb' 0 16 = 0 := by
  rw [operandPart_formatD, Instr.operandBits, append_eq_append_iff, append_eq_append_iff, ofBool_eq_zero_iff, and_assoc]
  exact Iff.rfl

theorem operandPart_eq_send_iff {val : Byte} :
    operandPart w = (Instr.send val).operandBits ↔ w.extractLsb' 8 16 = 0 ∧ fieldC w = val := by
  rw [operandPart_formatV, Instr.operandBits, append_eq_append_iff]
  exact Iff.rfl

/-- WRBLK and RDBLK share format B. -/
theorem operandPart_eq_formatB_iff {dev : BitVec 7} {reg len : Byte} :
    operandPart w = ((0#1 ++ dev) ++ reg) ++ len ↔
      w.getLsbD 23 = false ∧ fieldDEV w = dev ∧ fieldREGA w = reg ∧ fieldC w = len := by
  rw [operandPart_formatB, append_eq_append_iff, append_eq_append_iff, append_eq_append_iff, ofBool_eq_zero_iff, and_assoc,
    and_assoc]

/-! ## The rows' masks (R115 to R119) -/

section
variable {op : BitVec 4}

/-- Every mask covers the header; what is left of it masks the operand bits. -/
theorem and_mask_eq_iff (m : BitVec 24) :
    w &&& ((15#4 ++ 15#4) ++ m) = (op ++ 0#4) ++ 0#24 ↔ HasHeader w op ∧ operandPart w &&& m = 0 := by
  have hall (x : BitVec 4) : x &&& 15#4 = x := BitVec.and_allOnes
  conv_lhs => rw [← header_append_operandPart w]
  rw [BitVec.and_append, BitVec.and_append, hall, hall, append_eq_append_iff, append_eq_append_iff]
  exact Iff.rfl

theorem maskK_iff : w &&& maskK = (op ++ 0#4) ++ 0#24 ↔ HasHeader w op ∧ w.extractLsb' 17 7 = 0 := by
  have hall (x : BitVec 7) : x &&& 127#7 = x := BitVec.and_allOnes
  have hoperands : operandPart w &&& ((127#7 ++ 0#1) ++ 0#16) = (0#7 ++ 0#1) ++ 0#16 ↔ w.extractLsb' 17 7 = 0 := by
    rw [operandPart_formatK, BitVec.and_append, BitVec.and_append, hall, BitVec.and_zero, BitVec.and_zero,
      BitVec.append_left_inj, BitVec.append_left_inj]
    exact Iff.rfl
  exact (and_mask_eq_iff _).trans (and_congr_right fun _ => hoperands)

theorem maskD_iff :
    w &&& maskD = (op ++ 0#4) ++ 0#24 ↔ HasHeader w op ∧ w.getLsbD 23 = false ∧ w.extractLsb' 0 16 = 0 := by
  have hbit (x : BitVec 1) : x &&& 1#1 = x := BitVec.and_allOnes
  have hall (x : BitVec 16) : x &&& 65535#16 = x := BitVec.and_allOnes
  have hoperands : operandPart w &&& ((1#1 ++ 0#7) ++ 65535#16) = (0#1 ++ 0#7) ++ 0#16 ↔
      w.getLsbD 23 = false ∧ w.extractLsb' 0 16 = 0 := by
    rw [operandPart_formatD, BitVec.and_append, BitVec.and_append, hbit, hall, BitVec.and_zero, append_eq_append_iff,
      BitVec.append_left_inj, ofBool_eq_zero_iff]
    exact Iff.rfl
  exact (and_mask_eq_iff _).trans (and_congr_right fun _ => hoperands)

theorem maskV_iff : w &&& maskV = (op ++ 0#4) ++ 0#24 ↔ HasHeader w op ∧ w.extractLsb' 8 16 = 0 := by
  have hall (x : BitVec 16) : x &&& 65535#16 = x := BitVec.and_allOnes
  have hoperands : operandPart w &&& (65535#16 ++ 0#8) = 0#16 ++ 0#8 ↔ w.extractLsb' 8 16 = 0 := by
    rw [operandPart_formatV, BitVec.and_append, hall, BitVec.and_zero, BitVec.append_left_inj]
    exact Iff.rfl
  exact (and_mask_eq_iff _).trans (and_congr_right fun _ => hoperands)

theorem maskB_iff : w &&& maskB = (op ++ 0#4) ++ 0#24 ↔ HasHeader w op ∧ w.getLsbD 23 = false := by
  have hbit (x : BitVec 1) : x &&& 1#1 = x := BitVec.and_allOnes
  have hoperands : operandPart w &&& (((1#1 ++ 0#7) ++ 0#8) ++ 0#8) = ((0#1 ++ 0#7) ++ 0#8) ++ 0#8 ↔
      w.getLsbD 23 = false := by
    rw [operandPart_formatB, BitVec.and_append, BitVec.and_append, BitVec.and_append, hbit, BitVec.and_zero,
      BitVec.and_zero, BitVec.and_zero, BitVec.append_left_inj, BitVec.append_left_inj, BitVec.append_left_inj,
      ofBool_eq_zero_iff]
  exact (and_mask_eq_iff _).trans (and_congr_right fun _ => hoperands)

theorem maskN_iff : w &&& maskN = (op ++ 0#4) ++ 0#24 ↔ HasHeader w op ∧ operandPart w = 0 := by
  have hall : operandPart w &&& 0xFFFFFF#24 = operandPart w := BitVec.and_allOnes
  exact (and_mask_eq_iff _).trans (and_congr_right fun _ => by rw [hall])

end

/-! ## Which words decode, and to what -/

/-- The words of each command: its opcode, the must-be-zero bits of its format 0 (R111), and for CONFIGURE a KHZ that is not
0 (R121); every operand is its slice of the word (R120). -/
inductive Decodes (w : CmdWord) : Instr → Prop
  | configure (header : HasHeader w 1) (zero : w.extractLsb' 17 7 = 0) (clock : fieldKHZ w ≠ 0) :
    Decodes w (.configure (fieldKHZ w) (fieldPU w))
  | beginTrans (header : HasHeader w 2) (zero : w.getLsbD 23 = false ∧ w.extractLsb' 0 16 = 0) :
    Decodes w (.beginTrans (fieldDEV w))
  | send (header : HasHeader w 3) (zero : w.extractLsb' 8 16 = 0) : Decodes w (.send (fieldC w))
  | wrblk (header : HasHeader w 4) (zero : w.getLsbD 23 = false) :
    Decodes w (.wrblk (fieldDEV w) (fieldREGA w) (fieldC w))
  | rdblk (header : HasHeader w 5) (zero : w.getLsbD 23 = false) :
    Decodes w (.rdblk (fieldDEV w) (fieldREGA w) (fieldC w))
  | stop (header : HasHeader w 6) (zero : operandPart w = 0) : Decodes w .stop
  | reset (header : HasHeader w 7) (zero : operandPart w = 0) : Decodes w .reset

theorem decodeRow_eq_ok_iff {mask pattern : CmdWord} {c i : Instr} :
    decodeRow w mask pattern c = .ok i ↔ w &&& mask = pattern ∧ c = i := by
  by_cases hmatch : w &&& mask = pattern
  · simp [decodeRow, hmatch]
  · simp [decodeRow, hmatch]

theorem refuseZeroClock_eq_ok_iff {r : Except IllegalWord Instr} {i : Instr} :
    refuseZeroClock r = .ok i ↔ r = .ok i ∧ i.wf = true := by
  cases r with
  | error e => simp [refuseZeroClock]
  | ok c =>
    cases hwf : c.wf with
    | true =>
      simp only [refuseZeroClock, hwf, if_true]
      exact ⟨fun h => ⟨h, Except.ok.inj h ▸ hwf⟩, And.left⟩
    | false =>
      simp only [refuseZeroClock, hwf, Bool.false_eq_true, if_false]
      exact ⟨nofun, fun ⟨h, hi⟩ => absurd (Except.ok.inj h ▸ hi) (by simp [hwf])⟩

theorem configure_wf_iff {khz : BitVec 16} {pu : Bool} : (Instr.configure khz pu).wf = true ↔ khz ≠ 0 := by
  simp [Instr.wf]

theorem Decodes.of_decode {i : Instr} (h : decode w = .ok i) : Decodes w i := by
  unfold decode at h
  split at h
  · rw [refuseZeroClock_eq_ok_iff, decodeRow_eq_ok_iff] at h
    obtain ⟨⟨hmatch, rfl⟩, hwf⟩ := h
    obtain ⟨hheader, hzero⟩ := (maskK_iff (op := 1)).1 hmatch
    exact .configure hheader hzero (configure_wf_iff.1 hwf)
  · obtain ⟨hmatch, rfl⟩ := decodeRow_eq_ok_iff.1 h
    exact ((maskD_iff (op := 2)).1 hmatch).elim .beginTrans
  · obtain ⟨hmatch, rfl⟩ := decodeRow_eq_ok_iff.1 h
    exact ((maskV_iff (op := 3)).1 hmatch).elim .send
  · obtain ⟨hmatch, rfl⟩ := decodeRow_eq_ok_iff.1 h
    exact ((maskB_iff (op := 4)).1 hmatch).elim .wrblk
  · obtain ⟨hmatch, rfl⟩ := decodeRow_eq_ok_iff.1 h
    exact ((maskB_iff (op := 5)).1 hmatch).elim .rdblk
  · obtain ⟨hmatch, rfl⟩ := decodeRow_eq_ok_iff.1 h
    exact ((maskN_iff (op := 6)).1 hmatch).elim .stop
  · obtain ⟨hmatch, rfl⟩ := decodeRow_eq_ok_iff.1 h
    exact ((maskN_iff (op := 7)).1 hmatch).elim .reset
  · cases h

theorem Decodes.wf {i : Instr} (h : Decodes w i) : i.wf = true := by
  cases h with
  | configure _ _ clock => exact configure_wf_iff.2 clock
  | _ => rfl

theorem Decodes.encode_eq {i : Instr} (h : Decodes w i) : encode i = w := by
  cases h with
  | configure header zero _ => exact encode_eq_iff.2 ⟨header, operandPart_eq_configure_iff.2 ⟨zero, rfl, rfl⟩⟩
  | beginTrans header zero => exact encode_eq_iff.2 ⟨header, operandPart_eq_beginTrans_iff.2 ⟨zero.1, rfl, zero.2⟩⟩
  | send header zero => exact encode_eq_iff.2 ⟨header, operandPart_eq_send_iff.2 ⟨zero, rfl⟩⟩
  | wrblk header zero => exact encode_eq_iff.2 ⟨header, operandPart_eq_formatB_iff.2 ⟨zero, rfl, rfl, rfl⟩⟩
  | rdblk header zero => exact encode_eq_iff.2 ⟨header, operandPart_eq_formatB_iff.2 ⟨zero, rfl, rfl, rfl⟩⟩
  | stop header zero => exact encode_eq_iff.2 ⟨header, zero⟩
  | reset header zero => exact encode_eq_iff.2 ⟨header, zero⟩

theorem Decodes.of_encode_eq {i : Instr} (henc : encode i = w) (hwf : i.wf = true) : Decodes w i := by
  obtain ⟨header, hoperands⟩ := encode_eq_iff.1 henc
  cases i with
  | configure khz pu =>
    obtain ⟨zero, rfl, rfl⟩ := operandPart_eq_configure_iff.1 hoperands
    exact .configure header zero (configure_wf_iff.1 hwf)
  | beginTrans dev =>
    obtain ⟨zeroA, rfl, zeroBC⟩ := operandPart_eq_beginTrans_iff.1 hoperands
    exact .beginTrans header ⟨zeroA, zeroBC⟩
  | send val =>
    obtain ⟨zero, rfl⟩ := operandPart_eq_send_iff.1 hoperands
    exact .send header zero
  | wrblk dev reg len =>
    obtain ⟨zero, rfl, rfl, rfl⟩ := operandPart_eq_formatB_iff.1 hoperands
    exact .wrblk header zero
  | rdblk dev reg len =>
    obtain ⟨zero, rfl, rfl, rfl⟩ := operandPart_eq_formatB_iff.1 hoperands
    exact .rdblk header zero
  | stop => exact .stop header hoperands
  | reset => exact .reset header hoperands

theorem Decodes.hasHeader {i : Instr} (h : Decodes w i) : HasHeader w i.opcode := (encode_eq_iff.1 h.encode_eq).1

theorem Decodes.decode_eq {i : Instr} (h : Decodes w i) : decode w = .ok i := by
  rw [decode, h.hasHeader.1]
  cases h with
  | configure header zero clock =>
    exact refuseZeroClock_eq_ok_iff.2
      ⟨decodeRow_eq_ok_iff.2 ⟨(maskK_iff (op := 1)).2 ⟨header, zero⟩, rfl⟩, configure_wf_iff.2 clock⟩
  | beginTrans header zero => exact decodeRow_eq_ok_iff.2 ⟨(maskD_iff (op := 2)).2 ⟨header, zero⟩, rfl⟩
  | send header zero => exact decodeRow_eq_ok_iff.2 ⟨(maskV_iff (op := 3)).2 ⟨header, zero⟩, rfl⟩
  | wrblk header zero => exact decodeRow_eq_ok_iff.2 ⟨(maskB_iff (op := 4)).2 ⟨header, zero⟩, rfl⟩
  | rdblk header zero => exact decodeRow_eq_ok_iff.2 ⟨(maskB_iff (op := 5)).2 ⟨header, zero⟩, rfl⟩
  | stop header zero => exact decodeRow_eq_ok_iff.2 ⟨(maskN_iff (op := 6)).2 ⟨header, zero⟩, rfl⟩
  | reset header zero => exact decodeRow_eq_ok_iff.2 ⟨(maskN_iff (op := 7)).2 ⟨header, zero⟩, rfl⟩

/-- Settles O1: the word of a legal command has that command's header and operand bits, so it stands for the command. -/
theorem decodeEncode : Obligations.DecodeEncode := fun _ hwf => (Decodes.of_encode_eq rfl hwf).decode_eq

/-- Settles O2: a word that stands for a command is its header and operand bits, with no bit left over. -/
theorem encodeDecode : Obligations.EncodeDecode := fun _ _ h =>
  ⟨(Decodes.of_decode h).encode_eq, (Decodes.of_decode h).wf⟩

/-- Settles O3: case by case of the command. -/
theorem operandSlices : Obligations.OperandSlices := by
  intro w i h
  have hdec := Decodes.of_decode h
  refine ⟨hdec.hasHeader.1.symm, ?_⟩
  cases hdec with
  | configure => exact ⟨rfl, rfl⟩
  | beginTrans => rfl
  | send => rfl
  | wrblk => exact ⟨rfl, rfl, rfl⟩
  | rdblk => exact ⟨rfl, rfl, rfl⟩
  | stop => trivial
  | reset => trivial

/-- Settles O5: each word is the encoder's word of the command named. -/
theorem decodeExamples : Obligations.DecodeExamples :=
  ⟨decodeEncode (.configure 100 true) rfl, decodeEncode (.configure 400 false) rfl,
    decodeEncode (.beginTrans 0x50) rfl, decodeEncode (.send 0x10) rfl, decodeEncode (.wrblk 0x50 0x10 2) rfl,
    decodeEncode (.rdblk 0x50 0x10 14) rfl, decodeEncode .stop rfl, decodeEncode .reset rfl⟩

end Sys2Proof

namespace Sys2Proof.Machine

/-! ## Legal words (R121) -/

variable {w : CmdWord}

theorem exists_decodes_of_legalWord (h : legalWord w) : ∃ i, Decodes w i := by
  obtain ⟨hlo, hhi, hz, hformat⟩ := h
  have header (op : BitVec 4) (hop : (w.extractLsb' 28 4).toNat = op.toNat) : HasHeader w op :=
    ⟨BitVec.eq_of_toNat_eq hop, hz⟩
  have hops : (w.extractLsb' 28 4).toNat = 1 ∨ (w.extractLsb' 28 4).toNat = 2 ∨ (w.extractLsb' 28 4).toNat = 3 ∨
      (w.extractLsb' 28 4).toNat = 4 ∨ (w.extractLsb' 28 4).toNat = 5 ∨ (w.extractLsb' 28 4).toNat = 6 ∨
      (w.extractLsb' 28 4).toNat = 7 := by omega
  rcases hops with hop | hop | hop | hop | hop | hop | hop <;> rw [hop] at hformat
  · exact ⟨_, .configure (header 1 hop) hformat.1 hformat.2⟩
  · exact ⟨_, .beginTrans (header 2 hop) hformat⟩
  · exact ⟨_, .send (header 3 hop) hformat⟩
  · exact ⟨_, .wrblk (header 4 hop) hformat⟩
  · exact ⟨_, .rdblk (header 5 hop) hformat⟩
  · exact ⟨_, .stop (header 6 hop) hformat⟩
  · exact ⟨_, .reset (header 7 hop) hformat⟩

theorem opcode_bounds (i : Instr) : 1 ≤ i.opcode.toNat ∧ i.opcode.toNat ≤ 7 := by cases i <;> simp [Instr.opcode]

theorem legalWord_of_decodes {i : Instr} (h : Decodes w i) : legalWord w := by
  obtain ⟨hop, hz⟩ := h.hasHeader
  obtain ⟨hlo, hhi⟩ := opcode_bounds i
  rw [legalWord, show w.extractLsb' 28 4 = i.opcode from hop]
  refine ⟨hlo, hhi, hz, ?_⟩
  cases h with
  | configure _ zero clock => exact ⟨zero, clock⟩
  | beginTrans _ zero => exact zero
  | send _ zero => exact zero
  | wrblk _ zero => exact zero
  | rdblk _ zero => exact zero
  | stop _ zero => exact zero
  | reset _ zero => exact zero

theorem legalWord_iff_decode : legalWord w ↔ ∃ i, decode w = .ok i :=
  ⟨fun h => (exists_decodes_of_legalWord h).imp fun _ => Decodes.decode_eq,
    fun ⟨_, h⟩ => legalWord_of_decodes (.of_decode h)⟩

theorem hostCommand_refuses {s : State} {why : IllegalWord} (k : Instr → State → Host.Outcome State Fault Refusal)
    (hp : s.ph = .idle) (hw : decode w = .error why) : hostCommand w k s = .refused (.illegal why) := by
  simp [hostCommand, hp, hw]

/-- Settles O4: the legal words are those that decode, and an idle block refuses what does not decode. -/
theorem illegalRefused : Obligations.IllegalRefused := by
  intro w s rest hp hh
  refine ⟨legalWord_iff_decode, fun hillegal => ?_⟩
  have hissue : step s = hostCommand w exec { s with host := rest } := by simp only [step, hh, hostStep]
  cases hw : decode w with
  | ok i => exact absurd (legalWord_iff_decode.2 ⟨i, hw⟩) hillegal
  | error why => exact ⟨why, hissue.trans (hostCommand_refuses exec hp hw)⟩

/-! ## Acceptance as a step of its own (R112) -/

section
variable (i : Instr) (s : State)

/-- Before its first access a command sets SEG, PH, DIR, RETRY and ERR at most. -/
theorem startCommand_frame : startCommand i s = { s with
    seg := (startCommand i s).seg, ph := (startCommand i s).ph, dir := (startCommand i s).dir
    retry := (startCommand i s).retry, err := (startCommand i s).err } := by
  cases i <;> rfl

theorem startCommand_seg_opcode : (startCommand i s).seg.opcode = i.opcode := by cases i <;> rfl

theorem startCommand_busy : (startCommand i s).ph ≠ .idle := by cases i <;> exact nofun

theorem hostCommand_present_next (hp : s.ph = .idle) (hw : decode w = .ok i) :
    hostCommand w presentCommand s = .next (startCommand i (accepted i s)) := by
  rw [hostCommand_decoded presentCommand hp hw, presentCommand, accept_next i s hp (Decodes.of_decode hw).wf, thenDo_next]

end

/-- Settles O42: the step is acceptance, and what follows it sets the command's position only. -/
theorem presentAccepts : Obligations.PresentAccepts := by
  intro w i s rest hp hh hw
  have hdec := Decodes.of_decode hw
  have hpresent : step s = hostCommand w presentCommand { s with host := rest } := by simp only [step, hh, hostStep]
  have hstep : step s = .next (startCommand i (accepted i { s with host := rest })) :=
    hpresent.trans (hostCommand_present_next i _ hp hw)
  have hopc : (startCommand i (accepted i { s with host := rest })).opc = i.opcode := by
    rw [startCommand_frame]
    exact accepted_opc _ i
  refine ⟨_, hstep, startCommand_busy i _, hopc.trans hdec.hasHeader.1.symm,
    (startCommand_seg_opcode i _).trans hopc.symm, ?_, ?_⟩
  · cases i with
    | configure khz pu => exact ⟨rfl, rfl, rfl⟩
    | beginTrans dev => exact ⟨rfl, rfl⟩
    | send val => exact ⟨rfl, rfl⟩
    | wrblk dev reg len => exact ⟨rfl, rfl, rfl, rfl⟩
    | rdblk dev reg len => exact ⟨rfl, rfl, rfl, rfl⟩
    | stop => rfl
    | reset => rfl
  · rw [startCommand_frame]
    simp [hdec.encode_eq]

/-! ## The address-phase byte (R125) -/

/-- The shift and the or place the address and the direction side by side. -/
theorem addrByte_eq_append (dev : BitVec 7) (dir : Dir) : addrByte dev dir = dev ++ dir.bit := by
  rw [addrByte, ← BitVec.setWidth_append_eq_shiftLeft_setWidth_or]
  exact BitVec.setWidth_eq _

theorem addrByte_dev (dev : BitVec 7) (dir : Dir) : (addrByte dev dir).extractLsb' 1 7 = dev := by
  rw [addrByte_eq_append, BitVec.extractLsb'_append_eq_left]

theorem addrByte_bit0 (dev : BitVec 7) (dir : Dir) : (addrByte dev dir).getLsbD 0 = dir.bit.getLsbD 0 := by
  rw [addrByte_eq_append, BitVec.getLsbD_append, if_pos Nat.one_pos]

/-- Settles O6: the two parts of the byte, for either direction. -/
theorem addressByteBits : Obligations.AddressByteBits := fun dev =>
  ⟨addrByte_dev dev .write, addrByte_bit0 dev .write, addrByte_dev dev .read, addrByte_bit0 dev .read⟩

end Sys2Proof.Machine
end

-- ==== WAIT and BEGIN under PERIPH's answers ====
section
/-! PROOFS. WAIT, ADDRESS and BEGIN under given answers of PERIPH (R84), obligations O10 to O12 and O22 to O26. A WAIT's end
is written out as a state; `Reached` says what a trigger and the WAIT after it leave under one answer, an attempt of ADDRESS
is one or two of these, and the not-acknowledged attempts go by induction on their list. `execBegin_ends` puts them together
for every way ADDRESS can end, and each statement about BEGIN is a case of it. -/

namespace Sys2Proof.Machine

/-! ## WAIT (R160) -/

/-- `s` after `n` polls that saw FLAG = 0, PERIPH having `rest` left of its moves; `p` is what PH then names. -/
def State.stayed (p : Phase) (n : Nat) (rest : List PeriphMove) (s : State) : State :=
  { s with
    ph := p, script := rest, draws := s.draws + n, poll := s.poll - BitVec.ofNat 8 n, trace := pollsTimeout n ++ s.trace }

/-- `s` after the polls of a WAIT in phase `p` that PERIPH answers with the completion `c`. -/
def State.completed (p : Phase) (c : Completion) (rest : List PeriphMove) (s : State) : State :=
  { periphStep c.stat c.data s with
    ph := p, script := rest, draws := s.draws + c.k, poll := s.poll - BitVec.ofNat 8 c.k, trace := pollsDone c.k ++ s.trace }

theorem pollsTimeout_succ_append (n : Nat) (es : List PortEvent) :
    pollsTimeout (n + 1) ++ es = pollsTimeout n ++ .poll false :: es := by
  simp [pollsTimeout, List.replicate_succ']

theorem pollsDone_succ (n : Nat) : pollsDone (n + 1) = .poll true :: pollsTimeout n := rfl

theorem Completion.fits_iff {limit : Nat} {c : Completion} : c.fits limit = true ↔ 1 ≤ c.k ∧ c.k ≤ limit := by
  simp [Completion.fits]

/-- Counting POLL down once more. -/
theorem sub_ofNat_succ (x : Byte) (n : Nat) : x - BitVec.ofNat 8 n - 1 = x - BitVec.ofNat 8 (n + 1) := by
  rw [BitVec.ofNat_add, ← sub_sub]
  rfl

section
variable (p : Phase) {s : State} {rest : List PeriphMove}

/-- While PERIPH stays the polls of the WAIT go by (R160). -/
theorem waitLoop_stay (j n : Nat) (hf : s.flag = false) (he : s.en = true) (hs : s.script = timeoutMoves j ++ rest) :
    ∃ q, waitLoop p (j + n) s = waitLoop p n (s.stayed q j rest) := by
  induction j generalizing s with
  | zero =>
    obtain rfl : s.script = rest := hs
    exact ⟨s.ph, by simp [State.stayed, pollsTimeout]⟩
  | succ j ih =>
    have hpoll := doPoll_stay p s (timeoutMoves j ++ rest) hf he hs
    obtain ⟨q, hq⟩ := ih (s := (doPoll p s).2) (by rw [hpoll]; exact hf) (by rw [hpoll]; exact he) (by rw [hpoll]; rfl)
    have hend : (doPoll p s).2.stayed q j rest = s.stayed q (j + 1) rest := by
      have hcount : s.poll - 1 - BitVec.ofNat 8 j = s.poll - BitVec.ofNat 8 (j + 1) := by
        rw [sub_right_comm, sub_ofNat_succ]
      simp only [hpoll, State.stayed, logEvent, hcount, pollsTimeout_succ_append, Nat.add_assoc, Nat.add_comm 1]
    refine ⟨q, ?_⟩
    rw [← hend, ← hq, Nat.succ_add, waitLoop, hpoll]
    rfl

theorem wait_timeout (hf : s.flag = false) (he : s.en = true) (hs : s.script = timeoutMoves s.poll.toNat ++ rest) :
    ∃ q, wait p s = (.timeout, s.stayed q s.poll.toNat rest) :=
  waitLoop_stay p s.poll.toNat 0 hf he hs

theorem wait_done {c : Completion} (hf : s.flag = false) (he : s.en = true) (hc : c.fits s.poll.toNat = true)
    (hs : s.script = c.moves ++ rest) : wait p s = (.ok, s.completed p c rest) := by
  obtain ⟨hpos, hle⟩ := Completion.fits_iff.1 hc
  obtain ⟨k, hk⟩ : ∃ k, c.k = k + 1 := ⟨c.k - 1, by omega⟩
  obtain ⟨n, hn⟩ : ∃ n, s.poll.toNat = k + (n + 1) := ⟨s.poll.toNat - c.k, by omega⟩
  obtain ⟨q, hq⟩ := waitLoop_stay p (rest := .complete c.stat c.data :: rest) k (n + 1) hf he
    (by rw [hs, Completion.moves, hk, List.append_assoc]; rfl)
  have hpoll := doPoll_complete p (s.stayed q k (.complete c.stat c.data :: rest)) c.stat c.data rest hf he rfl
  rw [wait, hn, hq, waitLoop, hpoll]
  simp only [State.stayed, State.completed, periphStep, logEvent, hk, sub_ofNat_succ, pollsDone_succ, if_true,
    Nat.add_assoc, List.cons_append]

/-- Settles O10: the final state is written out. -/
theorem waitDone : Obligations.WaitDone := by
  intro p s c rest hf he hc hs
  obtain ⟨hpos, hle⟩ := Completion.fits_iff.1 hc
  have hpoll : (s.poll - BitVec.ofNat 8 c.k).toNat = s.poll.toNat - c.k := by
    have := s.poll.isLt
    rw [BitVec.toNat_sub_of_le] <;> simp [BitVec.le_def] <;> omega
  exact ⟨_, wait_done p hf he hc hs, rfl, rfl, rfl, rfl, hpoll, rfl, rfl, rfl, rfl, rfl, rfl, ⟨rfl, rfl, rfl, rfl⟩,
    fun _ => rfl⟩

/-- Settles O11: the final state is written out. -/
theorem waitTimeout : Obligations.WaitTimeout := by
  intro p s rest hf he hs
  obtain ⟨q, hq⟩ := wait_timeout p hf he hs
  have hpoll : s.poll - BitVec.ofNat 8 s.poll.toNat = 0 := by simp
  exact ⟨_, hq, hf, rfl, rfl, rfl, hpoll, rfl, rfl, rfl, rfl, rfl, rfl, ⟨rfl, rfl, rfl, rfl⟩, fun _ => rfl⟩

end

/-- However PERIPH moves, the loop makes `k` polls, all of its `n` unless the last saw FLAG = 1 (R160). -/
theorem waitLoop_polls (p : Phase) (n : Nat) (s : State) (hn : n ≤ s.poll.toNat) :
    ∃ k ≤ n, (waitLoop p n s).2.poll.toNat + k = s.poll.toNat ∧
      (((waitLoop p n s).1 = .ok ∧ 1 ≤ k ∧ (waitLoop p n s).2.trace = pollsDone k ++ s.trace) ∨
        ((waitLoop p n s).1 = .timeout ∧ k = n ∧ (waitLoop p n s).2.trace = pollsTimeout k ++ s.trace)) := by
  induction n generalizing s with
  | zero => exact ⟨0, Nat.le_refl 0, rfl, .inr ⟨rfl, rfl, rfl⟩⟩
  | succ n ih =>
    have hcount : (doPoll p s).2.poll.toNat + 1 = s.poll.toNat := by rw [doPoll_poll]; bv_omega
    have htrace : (doPoll p s).2.trace = .poll (doPoll p s).1 :: s.trace := by simp [doPoll_eq]
    rw [waitLoop]
    cases hf : (doPoll p s).1 with
    | true =>
      rw [hf] at htrace
      exact ⟨1, by omega, hcount, .inl ⟨rfl, Nat.le_refl 1, htrace⟩⟩
    | false =>
      obtain ⟨k, hk, hpoll, hend⟩ := ih (doPoll p s).2 (by omega)
      rw [htrace, hf] at hend
      refine ⟨k + 1, by omega, by simp only [Bool.false_eq_true, if_false]; omega, ?_⟩
      rcases hend with ⟨hok, hpos, ht⟩ | ⟨htime, rfl, ht⟩
      · obtain ⟨m, rfl⟩ := Nat.exists_eq_add_of_le' hpos
        refine .inl ⟨hok, by omega, ht.trans ?_⟩
        rw [pollsDone_succ, pollsDone_succ, List.cons_append, List.cons_append, pollsTimeout_succ_append]
      · exact .inr ⟨htime, rfl, ht.trans (pollsTimeout_succ_append k s.trace).symm⟩

/-- Settles O12: the loop's bound with `n` all of POLL. -/
theorem waitBounded : Obligations.WaitBounded := by
  intro p s
  obtain ⟨k, hk, hpoll, hend⟩ := waitLoop_polls p s.poll.toNat s (Nat.le_refl _)
  refine ⟨k, hk, hpoll, ?_⟩
  rcases hend with ⟨hok, hpos, ht⟩ | htime
  · exact .inl ⟨hok, hpos, ht, wait_ok_flag p s hok⟩
  · exact .inr htime

/-! ## A trigger and the WAIT after it, under one answer (R84, R161) -/

/-- The answer is a completion. -/
def Answer.completes : Answer → Bool
  | .timeout => false
  | .done _ => true

/-- The port events, newest first, of a trigger with the word `w`, the WAIT that gets the answer, and the read of STAT
after a completion. -/
def Answer.events (limit : Nat) (w : Byte) : Answer → List PortEvent
  | .timeout => pollsTimeout limit ++ [.ioWrite .ctrl w]
  | .done a => .ioRead .stat a.stat :: (pollsDone a.k ++ [.ioWrite .ctrl w])

/-- Of these events the trigger alone writes CTRL, and none writes DATA. -/
theorem Answer.readers_events (limit : Nat) (w : Byte) (a : Answer) :
    ctrlWords (a.events limit w) = [w] ∧ dataBytes (a.events limit w) = [] := by
  cases a with
  | timeout =>
    obtain ⟨hctrl, hdata, -⟩ := readers_pollsTimeout limit
    rw [Answer.events, ctrlWords_append, dataBytes_append, hctrl, hdata]
    exact ⟨rfl, rfl⟩
  | done c =>
    obtain ⟨hctrl, hdata, -⟩ := readers_pollsDone c.k
    change ctrlWords (pollsDone c.k ++ _) = _ ∧ dataBytes (pollsDone c.k ++ _) = _
    rw [ctrlWords_append, dataBytes_append, hctrl, hdata]
    exact ⟨rfl, rfl⟩

/-- From `s` the block comes to `t` by the port events `evs`, the last trigger writing `w` and its WAIT getting the answer
`a`; PERIPH then has `rest` left of its moves. -/
structure Reached (w : Byte) (a : Answer) (evs : List PortEvent) (rest : List PeriphMove) (s t : State) : Prop where
  cfg : t.cfg = s.cfg
  ctrl : ctrlHolds w t
  flag : t.flag = a.completes
  completion : ∀ c, a = .done c → t.stat = c.stat ∧ t.data = c.data ∧ t.st = c.stat &&& s.cfg.statusMask
  script : t.script = rest
  trace : t.trace = evs ++ s.trace

/-- What comes before, the parameters being kept, adds its port events. -/
theorem Reached.after {w : Byte} {a : Answer} {evs fs : List PortEvent} {rest : List PeriphMove} {s u t : State}
    (h : Reached w a evs rest u t) (hcfg : u.cfg = s.cfg) (ht : u.trace = fs ++ s.trace) :
    Reached w a (evs ++ fs) rest s t where
  cfg := h.cfg.trans hcfg
  ctrl := h.ctrl
  flag := h.flag
  completion := hcfg ▸ h.completion
  script := h.script
  trace := by rw [h.trace, ht, List.append_assoc]

/-- While FLAG = 1 a turn of PERIPH changes nothing (R81). -/
theorem periphTurn_of_flag {s : State} (h : s.flag = true) : periphTurn s = s :=
  periphTurn_disabled s (by rw [periphEnabled, h]; rfl)

section
variable (p q : Phase) {w : Byte} {s : State} {rest : List PeriphMove}

theorem doTrigger_script : (doTrigger q w s).script = (periphTurn s).script := by
  obtain ⟨-, -, -, -, -, -, -, -, -, -, -, -, -, hscript, -⟩ := doTrigger_spec q w s
  rw [hscript, enter_eq]

/-- A trigger and a WAIT that times out. -/
theorem triggerWait_timeout (hw : ControlWords.active s.cfg.bits w = true)
    (hs : (periphTurn s).script = timeoutMoves s.cfg.pollLimit.toNat ++ rest) :
    (wait p (doTrigger q w s)).1 = .timeout ∧
      Reached w .timeout (Answer.timeout.events s.cfg.pollLimit.toNat w) rest s (wait p (doTrigger q w s)).2 := by
  obtain ⟨hbus, -, hpoll, -, -, hen, hsta, hsto, hea, -, -, -, -, -, -, htrace⟩ := doTrigger_spec q w s
  obtain ⟨hf, he⟩ := doTrigger_active q w s hw
  obtain ⟨x, hx⟩ := wait_timeout p (rest := rest) hf he (by rw [hpoll, doTrigger_script, hs])
  rw [hx, hpoll]
  exact ⟨rfl, {
    cfg := hbus.cfg
    ctrl := by simp only [ctrlHolds, State.stayed, hbus.cfg]; exact ⟨hen, hsta, hsto, hea⟩
    flag := hf
    completion := nofun
    script := rfl
    trace := by simp only [State.stayed, htrace, Answer.events, List.append_assoc]; rfl }⟩

/-- A trigger, a WAIT that gets the completion `a`, and the read of STAT in phase `r`. -/
theorem triggerWait_done (r : Phase) {a : Completion} (hw : ControlWords.active s.cfg.bits w = true)
    (ha : a.fits s.cfg.pollLimit.toNat = true) (hs : (periphTurn s).script = a.moves ++ rest) :
    (wait p (doTrigger q w s)).1 = .ok ∧
      Reached w (.done a) ((Answer.done a).events s.cfg.pollLimit.toNat w) rest s
        (doStatus r (wait p (doTrigger q w s)).2) := by
  obtain ⟨hbus, -, hpoll, -, -, hen, hsta, hsto, hea, -, -, -, -, -, -, htrace⟩ := doTrigger_spec q w s
  obtain ⟨hf, he⟩ := doTrigger_active q w s hw
  rw [wait_done p hf he (by rwa [hpoll]) (by rw [doTrigger_script, hs]), doStatus_flag r _ rfl rfl]
  exact ⟨rfl, {
    cfg := hbus.cfg
    ctrl := by simp only [ctrlHolds, logEvent, State.completed, periphStep, hbus.cfg]; exact ⟨hen, hsta, hsto, hea⟩
    flag := rfl
    completion := by
      rintro c ⟨⟩
      exact ⟨rfl, rfl, by simp only [State.completed, periphStep, maskStatus, hbus.cfg]⟩
    script := rfl
    trace := by simp only [logEvent, State.completed, periphStep, htrace, Answer.events, List.cons_append,
      List.append_assoc]; rfl }⟩

end

/-! ## One attempt of ADDRESS (R165) -/

/-- The port events, newest first, of an attempt that gets these answers. -/
def attemptEvents (c : Config) (dev : BitVec 7) (dir : Dir) : List Answer → List PortEvent
  | [] => []
  | [a] => a.events c.pollLimit.toNat c.cw.start
  | a :: b :: _ => b.events c.pollLimit.toNat c.cw.xfer ++
      .ioWrite .data (addrByte dev dir) :: a.events c.pollLimit.toNat c.cw.start

section
variable (dev : BitVec 7) (dir : Dir) (c : AddrCodes) {s : State} {rest : List PeriphMove} {a b : Completion}

/-- After a completion the address byte goes out with no move of PERIPH, and the moves to come are kept (R81). -/
theorem doWriteData_of_flag (p : Phase) (v : Byte) {u : State} (h : u.flag = true) :
    doWriteData p v u = writeData v { u with ph := p } ∧ periphTurn (doWriteData p v u) = doWriteData p v u := by
  have heq : doWriteData p v u = writeData v { u with ph := p } := by rw [doWriteData, enter_flag p u h]
  exact ⟨heq, periphTurn_of_flag (by rw [heq]; exact h)⟩

/-- The start check passes exactly for a completion that starts well (R165). -/
theorem Reached.isStartStatus {w : Byte} {evs : List PortEvent} {u : State} (h : Reached w (.done a) evs rest s u) :
    isStartStatus u.cfg.status u.st = startsWell s.cfg a := by
  obtain ⟨-, -, hst⟩ := h.completion a rfl
  rw [h.cfg, hst, startsWell]

theorem addressAttempt_of_startTimeout (hw : Config.TriggersActive s.cfg)
    (hs : (periphTurn s).script = timeoutMoves s.cfg.pollLimit.toNat ++ rest) :
    (addressAttempt dev dir c s).1 = some c.startTimeout ∧
      Reached s.cfg.cw.start .timeout (attemptEvents s.cfg dev dir [.timeout]) rest s (addressAttempt dev dir c s).2 := by
  obtain ⟨htime, hreach⟩ := triggerWait_timeout .aStartWait .aStart hw.start hs
  rw [addressAttempt_startTimeout dev dir c s htime]
  exact ⟨rfl, hreach⟩

/-- The first half of an attempt whose start completes. -/
theorem startStat_reached (hw : Config.TriggersActive s.cfg) (ha : a.fits s.cfg.pollLimit.toNat = true)
    (hs : (periphTurn s).script = a.moves ++ rest) :
    (startWait s).1 = .ok ∧
      Reached s.cfg.cw.start (.done a) ((Answer.done a).events s.cfg.pollLimit.toNat s.cfg.cw.start) rest s (startStat s) :=
  triggerWait_done .aStartWait .aStart .aStartStat hw.start ha hs

theorem addressAttempt_of_startStatus (hw : Config.TriggersActive s.cfg) (ha : a.fits s.cfg.pollLimit.toNat = true)
    (hbad : startsWell s.cfg a = false) (hs : (periphTurn s).script = a.moves ++ rest) :
    (addressAttempt dev dir c s).1 = some c.startStatus ∧
      Reached s.cfg.cw.start (.done a) (attemptEvents s.cfg dev dir [.done a]) rest s (addressAttempt dev dir c s).2 := by
  obtain ⟨hok, hreach⟩ := startStat_reached hw ha hs
  rw [addressAttempt_startStatus dev dir c s hok (hreach.isStartStatus.trans hbad)]
  exact ⟨rfl, hreach⟩

section
variable (hw : Config.TriggersActive s.cfg) (ha : a.fits s.cfg.pollLimit.toNat = true) (hgood : startsWell s.cfg a = true)
include hw ha hgood

/-- After a good start the address byte is triggered: the state before that trigger. -/
theorem addrData_reached {moves : List PeriphMove} (hs : (periphTurn s).script = a.moves ++ moves) :
    (startWait s).1 = .ok ∧ isStartStatus (startStat s).cfg.status (startStat s).st = true ∧
      (doWriteData .aAddrData (addrByte dev dir) (startStat s)).cfg = s.cfg ∧
      (periphTurn (doWriteData .aAddrData (addrByte dev dir) (startStat s))).script = moves ∧
      (doWriteData .aAddrData (addrByte dev dir) (startStat s)).trace =
        .ioWrite .data (addrByte dev dir) :: (Answer.done a).events s.cfg.pollLimit.toNat s.cfg.cw.start ++ s.trace := by
  obtain ⟨hok, hreach⟩ := startStat_reached hw ha hs
  obtain ⟨heq, hturn⟩ := doWriteData_of_flag .aAddrData (addrByte dev dir) hreach.flag
  refine ⟨hok, hreach.isStartStatus.trans hgood, ?_⟩
  rw [hturn, heq]
  exact ⟨hreach.cfg, hreach.script, congrArg _ hreach.trace⟩

theorem addressAttempt_of_addrTimeout
    (hs : (periphTurn s).script = a.moves ++ (timeoutMoves s.cfg.pollLimit.toNat ++ rest)) :
    (addressAttempt dev dir c s).1 = some c.addrTimeout ∧
      Reached s.cfg.cw.xfer .timeout (attemptEvents s.cfg dev dir [.done a, .timeout]) rest s
        (addressAttempt dev dir c s).2 := by
  obtain ⟨hok, hstart, hcfg, hscript, htrace⟩ := addrData_reached dev dir hw ha hgood hs
  rw [← hcfg] at hw hscript
  obtain ⟨htime, hreach⟩ := triggerWait_timeout .aAddrWait .aAddrTrig hw.xfer hscript
  rw [addressAttempt_addrTimeout dev dir c s hok hstart htime]
  rw [hcfg] at hreach
  rw [addrWait, hcfg]
  exact ⟨rfl, hreach.after hcfg htrace⟩

/-- An attempt whose two WAITs complete leaves the status after the address byte in ST. -/
theorem addressAttempt_of_answered (hb : b.fits s.cfg.pollLimit.toNat = true)
    (hs : (periphTurn s).script = a.moves ++ (b.moves ++ rest)) :
    (addressAttempt dev dir c s).1 = none ∧
      Reached s.cfg.cw.xfer (.done b) (attemptEvents s.cfg dev dir [.done a, .done b]) rest s
        (addressAttempt dev dir c s).2 := by
  obtain ⟨hok, hstart, hcfg, hscript, htrace⟩ := addrData_reached dev dir hw ha hgood hs
  rw [← hcfg] at hw hb
  obtain ⟨hok', hreach⟩ := triggerWait_done .aAddrWait .aAddrTrig .aAddrStat hw.xfer hb hscript
  rw [addressAttempt_addrOk dev dir c s hok hstart hok']
  rw [hcfg] at hreach
  rw [addrWait, hcfg]
  exact ⟨rfl, hreach.after hcfg htrace⟩

end

end

/-! ## ADDRESS under given answers (R165, R166, R290) -/

/-- The port events, newest first, of the not-acknowledged attempts `nacks` and then an attempt that gets the answers
`last`. -/
def addressEvents (c : Config) (dev : BitVec 7) (dir : Dir) (nacks : List (Completion × Completion))
    (last : List Answer) : List PortEvent :=
  attemptEvents c dev dir last ++ nacks.reverse.flatMap fun a => attemptEvents c dev dir [.done a.1, .done a.2]

/-- The last word that ADDRESS writes to CTRL where it ends so. -/
def addrEndWord (c : ControlWords) : AddrEnd → Byte
  | .startTimeout => c.start
  | .startStatus => c.start
  | _ => c.xfer

/-- The attempt is answered by a good start and the not-acknowledge of the direction (R166). -/
structure Nacked (c : Config) (dir : Dir) (a : Completion × Completion) : Prop where
  startFits : a.1.fits c.pollLimit.toNat = true
  addrFits : a.2.fits c.pollLimit.toNat = true
  startsWell : startsWell c a.1 = true
  nack : a.2.stat &&& c.statusMask = nackOf c.status dir

/-- The answers of an attempt at which ADDRESS ends, with `n` retries left (R165, R290). -/
inductive LastAttempt (c : Config) (dir : Dir) (n : Nat) : AddrEnd → List Answer → Prop
  | startTimeout : LastAttempt c dir n .startTimeout [.timeout]
  | startStatus {a : Completion} (hfits : a.fits c.pollLimit.toNat = true) (hbad : startsWell c a = false) :
    LastAttempt c dir n .startStatus [.done a]
  | addrTimeout {a : Completion} (hfits : a.fits c.pollLimit.toNat = true) (hgood : startsWell c a = true) :
    LastAttempt c dir n .addrTimeout [.done a, .timeout]
  | addrStatus {a b : Completion} (ha : a.fits c.pollLimit.toNat = true) (hb : b.fits c.pollLimit.toNat = true)
    (hgood : startsWell c a = true) (hack : b.stat &&& c.statusMask ≠ ackOf c.status dir)
    (hfinal : b.stat &&& c.statusMask ≠ nackOf c.status dir ∨ n = 0) :
    LastAttempt c dir n .addrStatus [.done a, .done b]
  | acked {a b : Completion} (ha : a.fits c.pollLimit.toNat = true) (hb : b.fits c.pollLimit.toNat = true)
    (hgood : startsWell c a = true) (hack : b.stat &&& c.statusMask = ackOf c.status dir) :
    LastAttempt c dir n .acked [.done a, .done b]

/-- What `addressAnswers` says of the answers of one ADDRESS. -/
structure AddressAnswered (c : Config) (dir : Dir) (e : AddrEnd) (nacks : List (Completion × Completion))
    (last : List Answer) : Prop where
  length : nacks.length ≤ c.addrRetries.toNat
  nacked : ∀ a ∈ nacks, Nacked c dir a
  last : LastAttempt c dir (c.addrRetries.toNat - nacks.length) e last

theorem LastAttempt.of_lastAttempt {c : Config} {dir : Dir} {n : Nat} {e : AddrEnd} {last : List Answer}
    (h : lastAttempt c dir n e last = true) (hfits : last.all (Answer.fits c.pollLimit.toNat) = true) :
    LastAttempt c dir n e last := by
  unfold lastAttempt at h
  simp only [List.all_eq_true] at hfits
  split at h
  case h_1 => exact .startTimeout
  case h_2 a => exact .startStatus (hfits (.done a) (by simp)) (by simpa using h)
  case h_3 a => exact .addrTimeout (hfits (.done a) (by simp)) h
  case h_4 a b =>
    simp only [Bool.and_eq_true, Bool.or_eq_true, bne_iff_ne, beq_iff_eq] at h
    obtain ⟨⟨hgood, hack⟩, hfinal⟩ := h
    exact .addrStatus (hfits (.done a) (by simp)) (hfits (.done b) (by simp)) hgood hack hfinal
  case h_5 a b =>
    simp only [Bool.and_eq_true, beq_iff_eq] at h
    obtain ⟨hgood, hack⟩ := h
    exact .acked (hfits (.done a) (by simp)) (hfits (.done b) (by simp)) hgood hack
  case h_6 => cases h

theorem AddressAnswered.of_addressAnswers {c : Config} {dir : Dir} {e : AddrEnd}
    {nacks : List (Completion × Completion)} {last : List Answer} (h : addressAnswers c dir e nacks last = true) :
    AddressAnswered c dir e nacks last := by
  simp only [addressAnswers, Bool.and_eq_true, decide_eq_true_eq] at h
  obtain ⟨⟨⟨hlen, hnacks⟩, hfits⟩, hlast⟩ := h
  refine ⟨hlen, fun a ha => ?_, .of_lastAttempt hlast hfits⟩
  have hnack := List.all_eq_true.1 hnacks a ha
  simp only [Bool.and_eq_true, beq_iff_eq] at hnack
  obtain ⟨⟨⟨hstart, haddr⟩, hgood⟩, hstat⟩ := hnack
  exact ⟨hstart, haddr, hgood, hstat⟩

/-- ADDRESS, called in `s` and answering `r`, ends as `e` by the port events `evs`, its last attempt getting the answers
`last`; PERIPH then has `rest` left of its moves. -/
structure AddressEnds (c : AddrCodes) (e : AddrEnd) (last : List Answer) (evs : List PortEvent)
    (rest : List PeriphMove) (s : State) (r : Byte × State) : Prop where
  code : r.1 = addrEndCode c e
  reached : ∃ a, last.getLast? = some a ∧ Reached (addrEndWord s.cfg.cw e) a evs rest s r.2

theorem AddressEnds.after {c : AddrCodes} {e : AddrEnd} {last : List Answer} {evs fs : List PortEvent}
    {rest : List PeriphMove} {s u : State} {r : Byte × State} (h : AddressEnds c e last evs rest u r)
    (hcfg : u.cfg = s.cfg) (ht : u.trace = fs ++ s.trace) : AddressEnds c e last (evs ++ fs) rest s r := by
  obtain ⟨hcode, a, hlast, hreach⟩ := h
  exact ⟨hcode, a, hlast, hcfg ▸ hreach.after hcfg ht⟩

/-- The two statuses that ADDRESS tells apart differ (R10). -/
theorem ackOf_ne_nackOf {c : Config} (h : c.wf = true) (dir : Dir) : ackOf c.status dir ≠ nackOf c.status dir := by
  simp only [Config.wf, Bool.and_eq_true] at h
  obtain ⟨⟨-, hstatus⟩, -⟩ := h
  simp only [StatusCodes.wf, Bool.and_eq_true, bne_iff_ne] at hstatus
  obtain ⟨⟨-, hwrite⟩, hread⟩ := hstatus
  cases dir with
  | write => exact hwrite
  | read => exact hread

/-- The moves that PERIPH has left after a turn depend only on those it had and on whether it is enabled (R79). -/
theorem periphTurn_script_congr {s t : State} (hf : t.flag = s.flag) (he : t.en = s.en) (hs : t.script = s.script) :
    (periphTurn t).script = (periphTurn s).script := by
  have heq (u : State) : (periphTurn u).script = if periphEnabled u then u.script.tail else u.script := by
    rcases periphTurn_cases u with ⟨hoff, hu⟩ | ⟨hon, m, ⟨moves, hm, hu⟩ | ⟨hm, -, hu⟩⟩
    · rw [hu, hoff]; rfl
    · rw [hu, hon, hm]; cases m <;> rfl
    · rw [hu, hon, hm]; cases m <;> rfl
  rw [heq, heq, periphEnabled, periphEnabled, hf, he, hs]

section
variable (dev : BitVec 7) (dir : Dir) (c : AddrCodes) {s : State} {rest : List PeriphMove}

/-- The last attempt, with `n` retries left: RETRY is kept. -/
theorem addressLoop_last (hw : s.cfg.wf = true) {n : Nat} {e : AddrEnd} {last : List Answer}
    (hlast : LastAttempt s.cfg dir n e last)
    (hs : (periphTurn s).script = last.flatMap (Answer.moves s.cfg.pollLimit.toNat) ++ rest) :
    AddressEnds c e last (attemptEvents s.cfg dev dir last) rest s (addressLoop dev dir c n s) ∧
      (addressLoop dev dir c n s).2.retry = s.retry := by
  have hact := Config.triggersActive_of_wf hw
  have hretry := (addressAttempt_busOnly dev dir c s).retry
  cases hlast with
  | startTimeout =>
    obtain ⟨hcode, hreach⟩ := addressAttempt_of_startTimeout dev dir c hact (by simpa [Answer.moves] using hs)
    rw [addressLoop_failed dev dir c s n hcode]
    exact ⟨⟨rfl, _, rfl, hreach⟩, hretry⟩
  | startStatus hfits hbad =>
    obtain ⟨hcode, hreach⟩ := addressAttempt_of_startStatus dev dir c hact hfits hbad (by simpa [Answer.moves] using hs)
    rw [addressLoop_failed dev dir c s n hcode]
    exact ⟨⟨rfl, _, rfl, hreach⟩, hretry⟩
  | addrTimeout hfits hgood =>
    obtain ⟨hcode, hreach⟩ := addressAttempt_of_addrTimeout dev dir c hact hfits hgood (by simpa [Answer.moves] using hs)
    rw [addressLoop_failed dev dir c s n hcode]
    exact ⟨⟨rfl, _, rfl, hreach⟩, hretry⟩
  | addrStatus ha hb hgood hack hfinal =>
    obtain ⟨hnone, hreach⟩ := addressAttempt_of_answered dev dir c hact ha hgood hb (by simpa [Answer.moves] using hs)
    obtain ⟨-, -, hst⟩ := hreach.completion _ rfl
    rw [addressLoop_verdict dev dir c s n hnone (by rw [hreach.cfg, hst]; exact fun h => hfinal.elim (· h.1) h.2),
      hreach.cfg, hst, if_pos hack]
    exact ⟨⟨rfl, _, rfl, hreach⟩, hretry⟩
  | acked ha hb hgood hack =>
    obtain ⟨hnone, hreach⟩ := addressAttempt_of_answered dev dir c hact ha hgood hb (by simpa [Answer.moves] using hs)
    obtain ⟨-, -, hst⟩ := hreach.completion _ rfl
    rw [addressLoop_verdict dev dir c s n hnone
        (by rw [hreach.cfg, hst, hack]; exact fun h => ackOf_ne_nackOf hw dir h.1),
      hreach.cfg, hst, if_neg (not_not.2 hack)]
    exact ⟨⟨rfl, _, rfl, hreach⟩, hretry⟩

/-- Not-acknowledged attempts use up one retry each, and the loop goes on from where the last of them ended (R166). -/
theorem addressLoop_nacks (hw : s.cfg.wf = true) {nacks : List (Completion × Completion)} (n : Nat)
    (hnacks : ∀ a ∈ nacks, Nacked s.cfg dir a) (hn : nacks.length ≤ s.retry.toNat)
    (hs : (periphTurn s).script = nacks.flatMap attemptMoves ++ rest) :
    ∃ u, addressLoop dev dir c (nacks.length + n) s = addressLoop dev dir c n u ∧ u.cfg = s.cfg ∧
      u.retry.toNat = s.retry.toNat - nacks.length ∧ (periphTurn u).script = rest ∧
      u.trace = (nacks.reverse.flatMap fun a => attemptEvents s.cfg dev dir [.done a.1, .done a.2]) ++ s.trace := by
  induction nacks generalizing s with
  | nil => exact ⟨s, by rw [List.length_nil, Nat.zero_add], rfl, rfl, hs, rfl⟩
  | cons a nacks ih =>
    obtain ⟨ha, hb, hgood, hnack⟩ := hnacks a List.mem_cons_self
    obtain ⟨hnone, hreach⟩ := addressAttempt_of_answered dev dir c (Config.triggersActive_of_wf hw)
      (rest := nacks.flatMap attemptMoves ++ rest) ha hgood hb (by simpa [attemptMoves] using hs)
    obtain ⟨-, -, hst⟩ := hreach.completion a.2 rfl
    have hcfg : (addressAttempt dev dir c s).2.nextAttempt.cfg = s.cfg := hreach.cfg
    have hturn := periphTurn_of_flag (s := (addressAttempt dev dir c s).2.nextAttempt) hreach.flag
    have hretry : (addressAttempt dev dir c s).2.nextAttempt.retry.toNat = s.retry.toNat - 1 := by
      rw [State.nextAttempt_retry, (addressAttempt_busOnly dev dir c s).retry]
      rw [List.length_cons] at hn
      bv_omega
    have hlen : nacks.length ≤ s.retry.toNat - 1 := by rw [List.length_cons] at hn; omega
    obtain ⟨u, hu, hucfg, huretry, huscript, hutrace⟩ := ih (s := (addressAttempt dev dir c s).2.nextAttempt)
      (hcfg ▸ hw) (fun x hx => hcfg ▸ hnacks x (List.mem_cons_of_mem a hx)) (hretry ▸ hlen)
      (by rw [hturn]; exact hreach.script)
    refine ⟨u, ?_, hucfg.trans hcfg, ?_, huscript, ?_⟩
    · rw [List.length_cons, Nat.succ_add, addressLoop_retry dev dir c s _ hnone (by rw [hst, hnack, hreach.cfg]), hu]
    · rw [huretry, hretry, List.length_cons]; omega
    · rw [hutrace, hcfg, List.reverse_cons, List.flatMap_append, List.append_assoc]
      exact congrArg _ (hreach.trace.trans (by rw [List.flatMap_singleton]))

/-- DIR and RETRY as ADDRESS sets them before its first attempt (R165). -/
def State.addressStart (dir : Dir) (s : State) : State := { s with dir := dir, retry := s.cfg.addrRetries }

theorem address_eq (s : State) :
    address dev dir c s = addressLoop dev dir c s.cfg.addrRetries.toNat (s.addressStart dir) := rfl

/-- ADDRESS under given answers: each not-acknowledge has counted RETRY down by one. -/
theorem address_ends (hw : s.cfg.wf = true) {e : AddrEnd} {nacks : List (Completion × Completion)} {last : List Answer}
    (h : AddressAnswered s.cfg dir e nacks last)
    (hs : (periphTurn s).script = addressMoves s.cfg nacks last ++ rest) :
    AddressEnds c e last (addressEvents s.cfg dev dir nacks last) rest s (address dev dir c s) ∧
      (address dev dir c s).2.retry.toNat = s.cfg.addrRetries.toNat - nacks.length := by
  obtain ⟨hlen, hnacks, hlast⟩ := h
  rw [← periphTurn_script_congr (s := s) (t := s.addressStart dir) rfl rfl rfl, addressMoves, List.append_assoc] at hs
  obtain ⟨u, hu, hucfg, huretry, huscript, hutrace⟩ := addressLoop_nacks dev dir c (s := s.addressStart dir) hw
    (s.cfg.addrRetries.toNat - nacks.length) hnacks hlen hs
  have hcfg : u.cfg = s.cfg := hucfg
  obtain ⟨hends, hretry⟩ := addressLoop_last dev dir c (rest := rest) (n := s.cfg.addrRetries.toNat - nacks.length)
    (hcfg ▸ hw) (by rwa [hcfg]) (by rw [huscript, hcfg])
  rw [Nat.add_sub_of_le hlen] at hu
  rw [hcfg] at hends
  rw [address_eq, hu, hretry]
  exact ⟨hends.after hcfg hutrace, huretry⟩

end

/-! ## The words and bytes of an ADDRESS -/

section
variable (c : Config) (dev : BitVec 7) (dir : Dir) (a b : Answer)

theorem readers_attemptEvents_single :
    ctrlWords (attemptEvents c dev dir [a]) = [c.cw.start] ∧ dataBytes (attemptEvents c dev dir [a]) = [] :=
  a.readers_events c.pollLimit.toNat c.cw.start

theorem readers_attemptEvents_pair :
    ctrlWords (attemptEvents c dev dir [a, b]) = [c.cw.xfer, c.cw.start] ∧
      dataBytes (attemptEvents c dev dir [a, b]) = [addrByte dev dir] := by
  obtain ⟨hctrl, hdata⟩ := a.readers_events c.pollLimit.toNat c.cw.start
  obtain ⟨hctrl', hdata'⟩ := b.readers_events c.pollLimit.toNat c.cw.xfer
  rw [attemptEvents, ctrlWords_append, dataBytes_append, hctrl', hdata']
  exact ⟨congrArg (c.cw.xfer :: ·) hctrl, congrArg (addrByte dev dir :: ·) hdata⟩

/-- Every not-acknowledged attempt writes both words and the address byte. -/
theorem readers_nackEvents (nacks : List (Completion × Completion)) :
    ctrlWords (nacks.flatMap fun a => attemptEvents c dev dir [.done a.1, .done a.2]) =
        (List.replicate nacks.length [c.cw.xfer, c.cw.start]).flatten ∧
      dataBytes (nacks.flatMap fun a => attemptEvents c dev dir [.done a.1, .done a.2]) =
        List.replicate nacks.length (addrByte dev dir) := by
  induction nacks with
  | nil => exact ⟨rfl, rfl⟩
  | cons a nacks ih =>
    obtain ⟨hctrl, hdata⟩ := ih
    obtain ⟨hctrl', hdata'⟩ := readers_attemptEvents_pair c dev dir (.done a.1) (.done a.2)
    rw [List.flatMap_cons, ctrlWords_append, dataBytes_append, hctrl, hdata, hctrl', hdata']
    exact ⟨rfl, rfl⟩

variable {c dir} {n : Nat} {e : AddrEnd} {last : List Answer}

/-- The last attempt writes the second word and the address byte only where it has a second answer. -/
theorem LastAttempt.readers_attemptEvents (h : LastAttempt c dir n e last) :
    ctrlWords (attemptEvents c dev dir last) = List.replicate (last.length - 1) c.cw.xfer ++ [c.cw.start] ∧
      dataBytes (attemptEvents c dev dir last) = List.replicate (last.length - 1) (addrByte dev dir) := by
  cases h with
  | startTimeout => exact readers_attemptEvents_single ..
  | startStatus => exact readers_attemptEvents_single ..
  | addrTimeout => exact readers_attemptEvents_pair ..
  | addrStatus => exact readers_attemptEvents_pair ..
  | acked => exact readers_attemptEvents_pair ..

theorem LastAttempt.ctrlWords_addressEvents (h : LastAttempt c dir n e last) (nacks : List (Completion × Completion)) :
    ctrlWords (addressEvents c dev dir nacks last) =
      List.replicate (last.length - 1) c.cw.xfer ++
        c.cw.start :: (List.replicate nacks.length [c.cw.xfer, c.cw.start]).flatten := by
  rw [addressEvents, ctrlWords_append, (h.readers_attemptEvents dev).1, (readers_nackEvents c dev dir _).1,
    List.length_reverse, List.append_assoc, List.singleton_append]

theorem LastAttempt.dataBytes_addressEvents (h : LastAttempt c dir n e last) (nacks : List (Completion × Completion)) :
    dataBytes (addressEvents c dev dir nacks last) =
      List.replicate (nacks.length + (last.length - 1)) (addrByte dev dir) := by
  rw [addressEvents, dataBytes_append, (h.readers_attemptEvents dev).2, (readers_nackEvents c dev dir _).2,
    List.length_reverse, List.replicate_append_replicate, Nat.add_comm]

end

/-! ## BEGIN under given answers (R200) -/

/-- The port events, newest first, of a command that returns the status `code`, `es` being those of its micro-sequence. -/
def commandEvents (i : Instr) (code : Byte) (es : List PortEvent) : List PortEvent :=
  .finished (some code) :: (es ++ [.issued (encode i)])

theorem ctrlWords_commandEvents (i : Instr) (code : Byte) (es : List PortEvent) :
    ctrlWords (commandEvents i code es) = ctrlWords es :=
  (ctrlWords_append es [.issued (encode i)]).trans (List.append_nil _)

theorem dataBytes_commandEvents (i : Instr) (code : Byte) (es : List PortEvent) :
    dataBytes (commandEvents i code es) = dataBytes es :=
  (dataBytes_append es [.issued (encode i)]).trans (List.append_nil _)

/-- BEGIN, executed in `s`, ends in `t`, its ADDRESS ending as `e` after the answers `nacks` and `last`. -/
structure BeginEnds (dev : BitVec 7) (e : AddrEnd) (nacks : List (Completion × Completion)) (last : List Answer)
    (rest : List PeriphMove) (s t : State) : Prop where
  exec : exec (.beginTrans dev) s = .next t
  idle : t.ph = .idle
  result : t.result = addrEndCode s.cfg.codes.bt e
  resultValid : t.resultValid = true
  retry : t.retry.toNat = s.cfg.addrRetries.toNat - nacks.length
  reached : ∃ a, last.getLast? = some a ∧
    Reached (addrEndWord s.cfg.cw e) a
      (commandEvents (.beginTrans dev) (addrEndCode s.cfg.codes.bt e) (addressEvents s.cfg dev .write nacks last)) rest s t

section
variable {dev : BitVec 7} {e : AddrEnd} {nacks : List (Completion × Completion)} {last : List Answer}
  {rest : List PeriphMove} {s t : State}

theorem execBegin_ends (hw : s.cfg.wf = true) (hp : s.ph = .idle) (h : AddressAnswered s.cfg .write e nacks last)
    (hs : (periphTurn s).script = addressMoves s.cfg nacks last ++ rest) : ∃ t, BeginEnds dev e nacks last rest s t := by
  rw [← periphTurn_script_congr (s := s) (t := (accepted (.beginTrans dev) s).inSeg .bt) rfl rfl rfl] at hs
  obtain ⟨⟨hcode, a, hlast, hreach⟩, hretry⟩ := address_ends dev .write s.cfg.codes.bt
    (s := (accepted (.beginTrans dev) s).inSeg .bt) hw h hs
  have hreach := hreach.after (s := s) (fs := [.issued (encode (.beginTrans dev))]) rfl rfl
  exact ⟨_, {
    exec := execBegin_idle dev s hp
    idle := rfl
    result := hcode
    resultValid := rfl
    retry := hretry
    reached := ⟨a, hlast, { hreach with
      trace := congrArg₂ (fun code es => PortEvent.finished (some code) :: es) hcode hreach.trace }⟩ }⟩

/-- Settles O26: the words and bytes of the attempts are read off the port events. -/
theorem beginEndCodes : Obligations.BeginEndCodes := by
  intro dev s e nacks last rest hw hp h hs
  have hanswered := AddressAnswered.of_addressAnswers h
  obtain ⟨t, hends⟩ := execBegin_ends (dev := dev) hw hp hanswered hs
  obtain ⟨a, -, hreach⟩ := hends.reached
  refine ⟨t, _, hends.exec, hends.idle, hends.result, hreach.script, hreach.trace, ?_, ?_⟩
  · rw [dataBytes_commandEvents, hanswered.last.dataBytes_addressEvents, List.reverse_replicate, addressBytes]
  · rw [ctrlWords_commandEvents, hanswered.last.ctrlWords_addressEvents, addressWords]
    simp [List.reverse_flatten]

/-- BEGIN under answers whose last one is known. -/
theorem BeginEnds.reached_of_last {a : Answer} (h : BeginEnds dev e nacks last rest s t) (ha : last.getLast? = some a) :
    Reached (addrEndWord s.cfg.cw e) a
      (commandEvents (.beginTrans dev) (addrEndCode s.cfg.codes.bt e) (addressEvents s.cfg dev .write nacks last))
      rest s t := by
  obtain ⟨b, hb, hreach⟩ := h.reached
  obtain rfl : b = a := Option.some.inj (hb.symm.trans ha)
  exact hreach

/-- `CW_START` and `CW_XFER` once more, for a last attempt with two answers. -/
theorem replicate_pair_succ (n : Nat) (x y : Byte) :
    List.replicate (2 - 1) x ++ y :: (List.replicate n [x, y]).flatten = (List.replicate (n + 1) [x, y]).flatten := rfl

/-- Settles O22: the last attempt ends ADDRESS as acknowledged. -/
theorem beginAcked : Obligations.BeginAcked := by
  intro dev s nacks last rest hw hp hlen hfits hnack hack hs
  have hall (a) (ha : a ∈ nacks) : Nacked s.cfg .write a := by
    obtain ⟨hstart, haddr, hgood⟩ := hfits a (List.mem_append_left _ ha)
    exact ⟨hstart, haddr, hgood, hnack a ha⟩
  obtain ⟨hstart, haddr, hgood⟩ := hfits last (List.mem_append_right _ List.mem_cons_self)
  have hlast : LastAttempt s.cfg .write (s.cfg.addrRetries.toNat - nacks.length) .acked [.done last.1, .done last.2] :=
    .acked hstart haddr hgood hack
  obtain ⟨t, hends⟩ := execBegin_ends (dev := dev) (rest := rest) hw hp ⟨hlen, hall, hlast⟩
    (by simpa [addressMoves, attemptMoves, Answer.moves] using hs)
  have hreach := hends.reached_of_last rfl
  obtain ⟨hstat, hdata, hst⟩ := hreach.completion _ rfl
  refine ⟨t, _, hends.exec, hends.idle, hends.result, hends.resultValid, hreach.flag, hreach.ctrl, hstat, hdata,
    hst.trans hack, hends.retry, hreach.script, hreach.trace, ?_, ?_⟩
  · rw [ctrlWords_commandEvents, hlast.ctrlWords_addressEvents]
    exact replicate_pair_succ nacks.length _ _
  · rw [dataBytes_commandEvents, hlast.dataBytes_addressEvents]
    rfl

/-- BEGIN's four codes differ (R11). -/
theorem bt_codes_nodup {c : Config} (h : c.wf = true) : c.codes.bt.toList.Nodup := by
  simp only [Config.wf, Bool.and_eq_true] at h
  obtain ⟨-, hcodes⟩ := h
  simp only [ResultCodes.wf, ResultCodes.group, Bool.and_eq_true, decide_eq_true_eq] at hcodes
  obtain ⟨⟨⟨⟨⟨hbt, -⟩, -⟩, -⟩, -⟩, -⟩ := hcodes
  exact hbt

/-- Settles O23: the last not-acknowledge finds no retry left, so it ends ADDRESS with its status code. -/
theorem beginNacked : Obligations.BeginNacked := by
  intro dev s nacks rest hw hp hlen hnacks hs
  have hall (a) (ha : a ∈ nacks) : Nacked s.cfg .write a := by
    obtain ⟨hstart, haddr, hgood, hnack⟩ := hnacks a ha
    exact ⟨hstart, haddr, hgood, hnack⟩
  obtain ⟨init, last, rfl⟩ := (List.eq_nil_or_concat' nacks).resolve_left (List.ne_nil_of_length_eq_add_one hlen)
  rw [List.length_append, List.length_singleton, Nat.add_right_cancel_iff] at hlen
  obtain ⟨hstart, haddr, hgood, hnack⟩ := hall last (List.mem_append_right _ List.mem_cons_self)
  have hlast : LastAttempt s.cfg .write (s.cfg.addrRetries.toNat - init.length) .addrStatus
      [.done last.1, .done last.2] :=
    .addrStatus hstart haddr hgood (hnack ▸ (ackOf_ne_nackOf hw .write).symm) (.inr (by omega))
  obtain ⟨t, hends⟩ := execBegin_ends (dev := dev) (rest := rest) hw hp
    ⟨hlen.le, fun a ha => hall a (List.mem_append_left _ ha), hlast⟩
    (by simpa [addressMoves, attemptMoves, Answer.moves] using hs)
  have hreach := hends.reached_of_last rfl
  have hcodes := bt_codes_nodup hw
  simp only [AddrCodes.toList, List.nodup_cons, List.mem_cons, List.not_mem_nil, or_false, not_or] at hcodes
  obtain ⟨⟨-, -, hst_as⟩, -, hat_as, -⟩ := hcodes
  have hretry : t.retry = 0 := by
    have := hends.retry
    bv_omega
  refine ⟨t, _, hends.exec, hends.idle, hends.result, hends.result ▸ Ne.symm hst_as, hends.result ▸ Ne.symm hat_as,
    hretry, hreach.flag, hreach.ctrl, hreach.script, hreach.trace, ?_, ?_⟩
  · rw [ctrlWords_commandEvents, hlast.ctrlWords_addressEvents, ← hlen]
    exact replicate_pair_succ init.length _ _
  · rw [dataBytes_commandEvents, hlast.dataBytes_addressEvents, ← hlen]
    rfl

/-- BEGIN whose first attempt is its last. -/
theorem execBegin_first (hw : s.cfg.wf = true) (hp : s.ph = .idle)
    (h : LastAttempt s.cfg .write s.cfg.addrRetries.toNat e last)
    (hs : (periphTurn s).script = last.flatMap (Answer.moves s.cfg.pollLimit.toNat) ++ rest) :
    ∃ t, BeginEnds dev e [] last rest s t := execBegin_ends hw hp ⟨Nat.zero_le _, nofun, h⟩ hs

theorem BeginEnds.trace_of_first (h : BeginEnds dev e [] last rest s t) :
    t.trace = .finished (some (addrEndCode s.cfg.codes.bt e)) ::
      (attemptEvents s.cfg dev .write last ++ [.issued (encode (.beginTrans dev))] ++ s.trace) := by
  obtain ⟨a, -, hreach⟩ := h.reached
  rw [hreach.trace, commandEvents, addressEvents, List.reverse_nil, List.flatMap_nil, List.append_nil, List.cons_append]

theorem BeginEnds.retry_of_first (h : BeginEnds dev e [] last rest s t) : t.retry = s.cfg.addrRetries :=
  BitVec.eq_of_toNat_eq h.retry

/-- Settles O24: the two ends at the start, at the first attempt. -/
theorem beginStartFails : Obligations.BeginStartFails := by
  constructor
  · intro dev s rest hw hp hs
    obtain ⟨t, hends⟩ := execBegin_first (dev := dev) (rest := rest) hw hp .startTimeout
      (by simpa [Answer.moves] using hs)
    have hreach := hends.reached_of_last rfl
    exact ⟨t, hends.exec, hends.result, hreach.flag, hreach.ctrl, by
      simpa [addrEndCode, attemptEvents, Answer.events] using hends.trace_of_first⟩
  · intro dev s c rest hw hp hfits hbad hs
    obtain ⟨t, hends⟩ := execBegin_first (dev := dev) (rest := rest) hw hp (.startStatus hfits hbad)
      (by simpa [Answer.moves] using hs)
    have hreach := hends.reached_of_last rfl
    exact ⟨t, hends.exec, hends.result, hreach.flag, hreach.ctrl, by
      simpa [addrEndCode, attemptEvents, Answer.events] using hends.trace_of_first⟩

/-- Settles O25: the two final ends at the address byte, at the first attempt. -/
theorem beginAddressFails : Obligations.BeginAddressFails := by
  constructor
  · intro dev s a rest hw hp hfits hgood hs
    obtain ⟨t, hends⟩ := execBegin_first (dev := dev) (rest := rest) hw hp (.addrTimeout hfits hgood)
      (by simpa [Answer.moves] using hs)
    have hreach := hends.reached_of_last rfl
    exact ⟨t, hends.exec, hends.result, hreach.flag, hends.retry_of_first, by
      simpa [addrEndCode, attemptEvents, Answer.events] using hends.trace_of_first⟩
  · intro dev s a b rest hw hp ha hgood hb hack hnack hs
    obtain ⟨t, hends⟩ := execBegin_first (dev := dev) (rest := rest) hw hp (.addrStatus ha hb hgood hack (.inl hnack))
      (by simpa [Answer.moves] using hs)
    have hreach := hends.reached_of_last rfl
    exact ⟨t, hends.exec, hends.result, hreach.flag, hends.retry_of_first, by
      simpa [addrEndCode, attemptEvents, Answer.events] using hends.trace_of_first⟩

end

end Sys2Proof.Machine
end

-- ==== CONFIGURE ====
section
/-! PROOFS. What CONFIGURE writes and leaves unchanged, and that repeating it changes nothing, obligations O13 and O16.
`MayComplete` says what PERIPH can do to FLAG, STAT and DATA between SEQ's accesses; the three writes are described one
by one and put together in the lemmas about `runConfigure`. -/

namespace Sys2Proof.Machine

/-! ## What PERIPH may do meanwhile (R79 to R82) -/

/-- From `s` to `t` FLAG, STAT and DATA keep their values, or PERIPH, enabled in `s`, has completed. -/
def MayComplete (s t : State) : Prop :=
  (t.flag = s.flag ∧ t.stat = s.stat ∧ t.data = s.data) ∨ (s.flag = false ∧ s.en = true ∧ t.flag = true)

/-- Once FLAG = 1 PERIPH has no further step, so two stretches with EN kept between them are one. -/
theorem MayComplete.trans {s t u : State} (h : MayComplete s t) (hen : t.en = s.en) (k : MayComplete t u) :
    MayComplete s u := by
  rcases h with ⟨hflag, hstat, hdata⟩ | ⟨hoff, hon, hdone⟩
  · rcases k with ⟨kflag, kstat, kdata⟩ | ⟨koff, kon, kdone⟩
    · exact .inl ⟨kflag.trans hflag, kstat.trans hstat, kdata.trans hdata⟩
    · exact .inr ⟨hflag ▸ koff, hen ▸ kon, kdone⟩
  · rcases k with ⟨kflag, -, -⟩ | ⟨-, -, kdone⟩
    · exact .inr ⟨hoff, hon, kflag.trans hdone⟩
    · exact .inr ⟨hoff, hon, kdone⟩

theorem periphMove_mayComplete (m : PeriphMove) {s : State} (h : periphEnabled s = true) :
    MayComplete s (periphMove m s) := by
  simp only [periphEnabled, Bool.and_eq_true, Bool.not_eq_true'] at h
  obtain ⟨hoff, hon⟩ := h
  cases m with
  | stay => exact .inl ⟨rfl, rfl, rfl⟩
  | complete x y => exact .inr ⟨hoff, hon, rfl⟩

theorem periphTurn_mayComplete (s : State) : MayComplete s (periphTurn s) := by
  rcases periphTurn_cases s with ⟨-, hturn⟩ | ⟨hon, m, ⟨rest, -, hturn⟩ | ⟨-, -, hturn⟩⟩
  · exact .inl (by simp [hturn])
  · exact hturn ▸ periphMove_mayComplete m (s := { s with script := rest }) hon
  · exact hturn ▸ periphMove_mayComplete m (s := { s with clock := s.clock + 1 }) hon

theorem enter_mayComplete (p : Phase) (s : State) : MayComplete s (enter p s) :=
  periphTurn_mayComplete { s with ph := p }

/-! ## The word CW_ENABLE (R8, R9) -/

/-- CW_ENABLE clears no FLAG: INT = 0 and EN = 1. -/
theorem Config.enable_of_wf {c : Config} (h : c.wf = true) :
    c.cw.enable.getLsbD c.bits.bInt = false ∧ c.cw.enable.getLsbD c.bits.bEn = true := by
  have hcw : c.cw.wf c.bits = true := by simp_all [Config.wf]
  simp only [ControlWords.wf, Bool.and_eq_true, Bool.not_eq_true'] at hcw
  obtain ⟨⟨-, ⟨hint, hen⟩, -⟩, -⟩ := hcw
  exact ⟨hint, hen⟩

theorem Config.en_ne_of_wf {c : Config} (h : c.wf = true) :
    c.bits.bEn ≠ c.bits.bSta ∧ c.bits.bEn ≠ c.bits.bSto ∧ c.bits.bEn ≠ c.bits.bEa := by
  have hbits : c.bits.wf = true := by simp_all [Config.wf]
  simp only [BitPositions.wf, decide_eq_true_eq, List.nodup_cons, List.mem_cons, List.not_mem_nil, or_false,
    not_or] at hbits
  obtain ⟨⟨hsta, hsto, -, hea⟩, -⟩ := hbits
  exact ⟨hsta, hsto, hea⟩

theorem bit_getLsbD_of_ne {m n : Fin 8} (h : m ≠ n) : (1#8 <<< m.val).getLsbD n = false := by
  rw [← BitVec.twoPow_eq, BitVec.getLsbD_twoPow]
  simp [Fin.val_ne_of_ne h]

theorem zextBit_bit0 (b : Bool) : (zextBit b).getLsbD 0 = b := by cases b <;> rfl

/-! ## The three writes (R190) -/

/-- The byte that CONFIGURE writes to DIV: the divisor of KHZ, a drawn byte where that is unspecified. -/
def State.divByte (s : State) : Byte := (divisor s.cfg.divisor s.khz).getD (Config.freeByte s.draws)

theorem State.divByte_congr {s t : State} (hcfg : t.cfg = s.cfg) (hkhz : t.khz = s.khz) (hdraws : t.draws = s.draws) :
    t.divByte = s.divByte := by rw [State.divByte, State.divByte, hcfg, hkhz, hdraws]

section
variable (s : State)

theorem doConfigDiv_eq : ∃ n, doConfigDiv s = writeDiv s.divByte { enter .cfgDiv s with draws := n } := by
  have hbyte : (enter .cfgDiv s).divByte = s.divByte :=
    State.divByte_congr (enter_cfg .cfgDiv s) (enter_busOnly .cfgDiv s).khz (enter_draws .cfgDiv s)
  rw [← hbyte, doConfigDiv, State.divByte]
  split
  · next d hd => exact ⟨(enter .cfgDiv s).draws, by rw [hd]; rfl⟩
  · next hd => exact ⟨(enter .cfgDiv s).draws + 1, by rw [hd]; rfl⟩

theorem doConfigDiv_div : (doConfigDiv s).div = s.divByte := by
  obtain ⟨n, hn⟩ := doConfigDiv_eq s
  rw [hn, writeDiv_div]

theorem doConfigDiv_trace : (doConfigDiv s).trace = .ioWrite .div s.divByte :: s.trace := by
  obtain ⟨n, hn⟩ := doConfigDiv_eq s
  simp [hn]

theorem doConfigDiv_en : (doConfigDiv s).en = s.en := by
  obtain ⟨n, hn⟩ := doConfigDiv_eq s
  simp [hn]

theorem doConfigDiv_mayComplete : MayComplete s (doConfigDiv s) := by
  obtain ⟨n, hn⟩ := doConfigDiv_eq s
  exact hn ▸ enter_mayComplete .cfgDiv s

theorem doConfigPullup_div : (doConfigPullup s).div = s.div := (enter_busOnly .cfgPu s).div

theorem doConfigPullup_pu : (doConfigPullup s).pu = s.puen := by
  rw [doConfigPullup, writePullup_pu, zextBit_bit0, (enter_busOnly .cfgPu s).puen]

theorem doConfigPullup_trace : (doConfigPullup s).trace = .ioWrite .pullup (zextBit s.puen) :: s.trace := by
  rw [doConfigPullup, writePullup_trace, enter_trace, (enter_busOnly .cfgPu s).puen]

theorem doConfigPullup_en : (doConfigPullup s).en = s.en := enter_en .cfgPu s

theorem doConfigPullup_mayComplete : MayComplete s (doConfigPullup s) := enter_mayComplete .cfgPu s

theorem doConfigEnable_div : (doConfigEnable s).div = s.div := (enter_busOnly .cfgEn s).div

theorem doConfigEnable_pu : (doConfigEnable s).pu = s.pu := (enter_busOnly .cfgEn s).pu

theorem doConfigEnable_ctrl : ctrlHolds s.cfg.cw.enable (doConfigEnable s) := by
  rw [← enter_cfg .cfgEn s]
  exact ⟨rfl, rfl, rfl, rfl⟩

theorem doConfigEnable_trace : (doConfigEnable s).trace = .ioWrite .ctrl s.cfg.cw.enable :: s.trace := by
  simp [doConfigEnable]

/-- The write of CW_ENABLE itself leaves FLAG, STAT and DATA alone (R72). -/
theorem doConfigEnable_mayComplete (hw : s.cfg.wf = true) : MayComplete s (doConfigEnable s) := by
  obtain ⟨hint, hen⟩ := Config.enable_of_wf hw
  rw [← enter_cfg .cfgEn s] at hint hen
  have hflag : (doConfigEnable s).flag = (enter .cfgEn s).flag := writeCtrl_flag_kept _ _ hint hen
  rw [MayComplete, hflag]
  exact enter_mayComplete .cfgEn s

end

/-! ## The command -/

section
variable {s t : State} (h : IoOnly s t)
include h

theorem IoOnly.eq : t = s.withIo t := h
theorem IoOnly.cfg : t.cfg = s.cfg := (congrArg State.cfg h.eq :)
theorem IoOnly.puen : t.puen = s.puen := (congrArg State.puen h.eq :)
theorem IoOnly.result : t.result = s.result := (congrArg State.result h.eq :)
theorem IoOnly.resultValid : t.resultValid = s.resultValid := (congrArg State.resultValid h.eq :)
theorem IoOnly.buf : t.buf = s.buf := (congrArg State.buf h.eq :)
theorem IoOnly.host : t.host = s.host := (congrArg State.host h.eq :)

end

section
variable (s : State)

/-- The state after the write of DIV. -/
def State.divWritten : State := doConfigDiv (s.inSeg .cfg)

/-- The state after the write of PULLUP. -/
def State.pullupWritten : State := doConfigPullup s.divWritten

theorem runConfigure_eq : runConfigure s = finishQuiet (doConfigEnable s.pullupWritten) := rfl

theorem State.divWritten_ioOnly : IoOnly s s.divWritten := (inSeg_ioOnly s .cfg).trans (doConfigDiv_ioOnly _)

theorem State.pullupWritten_ioOnly : IoOnly s s.pullupWritten := s.divWritten_ioOnly.trans (doConfigPullup_ioOnly _)

theorem runConfigure_ph : (runConfigure s).ph = .idle := finishQuiet_ph _

theorem runConfigure_div : (runConfigure s).div = s.divByte :=
  calc (runConfigure s).div
    _ = s.pullupWritten.div := doConfigEnable_div _
    _ = s.divWritten.div := doConfigPullup_div _
    _ = s.divByte := doConfigDiv_div _

theorem runConfigure_pu : (runConfigure s).pu = s.puen :=
  calc (runConfigure s).pu
    _ = s.pullupWritten.pu := doConfigEnable_pu _
    _ = s.divWritten.puen := doConfigPullup_pu _
    _ = s.puen := s.divWritten_ioOnly.puen

theorem runConfigure_ctrl : ctrlHolds s.cfg.cw.enable (runConfigure s) := by
  rw [← s.pullupWritten_ioOnly.cfg]
  exact doConfigEnable_ctrl s.pullupWritten

theorem runConfigure_trace :
    (runConfigure s).trace = [.finished none, .ioWrite .ctrl s.cfg.cw.enable, .ioWrite .pullup (zextBit s.puen),
      .ioWrite .div (runConfigure s).div] ++ s.trace := by
  rw [runConfigure_div, runConfigure_eq, finishQuiet_trace, doConfigEnable_trace, s.pullupWritten_ioOnly.cfg,
    State.pullupWritten, doConfigPullup_trace, s.divWritten_ioOnly.puen, State.divWritten, doConfigDiv_trace]
  rfl

/-- EN changes only with the last write, so the three stretches before the writes are one. -/
theorem runConfigure_mayComplete (hw : s.cfg.wf = true) : MayComplete s (runConfigure s) := by
  have hdiv : MayComplete s s.divWritten := doConfigDiv_mayComplete (s.inSeg .cfg)
  have hdivEn : s.divWritten.en = s.en := doConfigDiv_en (s.inSeg .cfg)
  have hpu : MayComplete s s.pullupWritten := hdiv.trans hdivEn (doConfigPullup_mayComplete _)
  have hpuEn : s.pullupWritten.en = s.en := (doConfigPullup_en _).trans hdivEn
  exact hpu.trans hpuEn (doConfigEnable_mayComplete s.pullupWritten (by rwa [s.pullupWritten_ioOnly.cfg]))

end

/-- With CW_ENABLE no more than bit B_EN, the other three fields are 0 after it is written. -/
theorem ctrlHolds.others_clear {t : State} (hw : t.cfg.wf = true) (h : ctrlHolds (1#8 <<< t.cfg.bits.bEn.val) t) :
    t.sta = false ∧ t.sto = false ∧ t.ea = false := by
  obtain ⟨-, hsta, hsto, hea⟩ := h
  obtain ⟨nsta, nsto, nea⟩ := Config.en_ne_of_wf hw
  exact ⟨hsta.trans (bit_getLsbD_of_ne nsta), hsto.trans (bit_getLsbD_of_ne nsto), hea.trans (bit_getLsbD_of_ne nea)⟩

/-- What CONFIGURE leaves in DIV, PU and the fields of CTRL; the parameters are kept. -/
structure Configured (khz : BitVec 16) (pu : Bool) (s t : State) : Prop where
  div : t.div = (divisor s.cfg.divisor khz).getD (Config.freeByte s.draws)
  pu : t.pu = pu
  ctrl : ctrlHolds s.cfg.cw.enable t
  cfg : t.cfg = s.cfg

theorem exec_configured {khz : BitVec 16} {pu : Bool} {s t : State} (h : exec (.configure khz pu) s = .next t) :
    Configured khz pu s t := by
  obtain rfl : runConfigure (accepted (.configure khz pu) s) = t := Host.Outcome.next.inj (exec_next h)
  exact
    { div := runConfigure_div (accepted (.configure khz pu) s), pu := runConfigure_pu (accepted (.configure khz pu) s),
      ctrl := runConfigure_ctrl (accepted (.configure khz pu) s),
      cfg := (runConfigure_ioOnly (accepted (.configure khz pu) s)).cfg }

/-- Settles O13: the three writes one after the other, with PERIPH's turn before each of them. -/
theorem configureResult : Obligations.ConfigureResult := by
  intro khz pu s hw hk hp
  have hexec := execConfigure_idle khz pu s hp hk
  have hset := exec_configured hexec
  have hio := runConfigure_ioOnly (accepted (.configure khz pu) s)
  have htrace := runConfigure_trace (accepted (.configure khz pu) s)
  have hmay := runConfigure_mayComplete (accepted (.configure khz pu) s) hw
  have hidle := runConfigure_ph (accepted (.configure khz pu) s)
  generalize runConfigure (accepted (.configure khz pu) s) = t at *
  obtain ⟨hen, -, -, -⟩ := hset.ctrl
  refine ⟨t, hexec, hidle, fun d hd => by simp [hset.div, hd], fun hd => by simp [hset.div, hd], hset.pu, hset.ctrl,
    ?_, ?_, hmay, htrace, hio.result, hio.resultValid, fun a => congrArg (Memory.read · a) hio.buf, hset.cfg, hio.host⟩
  · exact hen.trans (hset.cfg ▸ (Config.enable_of_wf hw).2)
  · intro hword
    rw [← hset.cfg] at hw hword
    exact ctrlHolds.others_clear hw (hword ▸ hset.cfg ▸ hset.ctrl)

/-- Settles O16: both runs leave the same word in CTRL, the same divisor in DIV and the same operand in PU. -/
theorem configureIdempotent : Obligations.ConfigureIdempotent := by
  intro khz pu d s t u hd hfirst hsecond
  have ht := exec_configured hfirst
  have hu := exec_configured hsecond
  obtain ⟨ten, tsta, tsto, tea⟩ := ht.ctrl
  obtain ⟨uen, usta, usto, uea⟩ := hu.ctrl
  rw [hu.cfg, ht.cfg] at uen usta usto uea
  rw [ht.cfg] at ten tsta tsto tea
  have udiv : u.div = d := by rw [hu.div, ht.cfg, hd, Option.getD_some]
  have tdiv : t.div = d := by rw [ht.div, hd, Option.getD_some]
  exact ⟨uen.trans ten.symm, usta.trans tsta.symm, usto.trans tsto.symm, uea.trans tea.symm, udiv.trans tdiv.symm,
    hu.pu.trans ht.pu.symm⟩

end Sys2Proof.Machine
end

-- ==== SEND and BEGIN whatever PERIPH does ====
section
/-! PROOFS. SEND under a given answer of PERIPH and under any, and BEGIN under any, obligations O19 to O21. However
PERIPH moves, a WAIT has got one of R84's answers (`triggerWait_some_answer`), so what TXBYTE does under an answer
(`txByte_ends`) serves both statements about SEND. BEGIN's transfers and its end are known from earlier parts;
`CtrlWordsIn` adds which words it writes to CTRL. -/

namespace Sys2Proof.Machine

/-! ## Any WAIT has got an answer (R84, R160) -/

section
variable (p : Phase) {s : State}

/-- Polls leave the stored fields of CTRL (R73). -/
theorem waitLoop_ctrlHolds {w : Byte} (n : Nat) (h : ctrlHolds w s) : ctrlHolds w (waitLoop p n s).2 := by
  have hpoll {u : State} (hu : ctrlHolds w u) : ctrlHolds w (doPoll p u).2 := by simpa [ctrlHolds, doPoll_eq] using hu
  induction n generalizing s with
  | zero => exact h
  | succ n ih =>
    simp only [waitLoop]
    split
    · exact hpoll h
    · exact ih (hpoll h)

/-- A WAIT that times out has seen FLAG = 0 to its end. -/
theorem waitLoop_timeout_flag (n : Nat) (hf : s.flag = false) (h : (waitLoop p n s).1 = .timeout) :
    (waitLoop p n s).2.flag = false := by
  induction n generalizing s with
  | zero => exact hf
  | succ n ih =>
    simp only [waitLoop] at h ⊢
    split
    · rename_i hseen
      rw [if_pos hseen] at h
      cases h
    · rename_i hseen
      rw [if_neg hseen] at h
      refine ih ?_ h
      simpa [doPoll_eq] using hseen

end

/-- The WAIT that ends as `x`, after a trigger with the word `w` in `s`, has got the answer; after a completion STAT is
read in phase `r`. PERIPH then has `rest` left of its moves. -/
def TriggerEnds (r : Phase) (w : Byte) (rest : List PeriphMove) (s : State) (x : WaitEnd × State) : Answer → Prop
  | .timeout => x.1 = .timeout ∧ Reached w .timeout (Answer.timeout.events s.cfg.pollLimit.toNat w) rest s x.2
  | .done a => x.1 = .ok ∧ Reached w (.done a) ((Answer.done a).events s.cfg.pollLimit.toNat w) rest s (doStatus r x.2)

section
variable (p q r : Phase) {w : Byte} {s : State} {rest : List PeriphMove}

theorem doTrigger_ctrlHolds : ctrlHolds w (doTrigger q w s) := by
  obtain ⟨hbus, -, -, -, -, hen, hsta, hsto, hea, -⟩ := doTrigger_spec q w s
  simp only [ctrlHolds, hbus.cfg]
  exact ⟨hen, hsta, hsto, hea⟩

/-- FLAG is 0 after the trigger, so where the WAIT sees it set PERIPH has written STAT (R74, R80). -/
theorem triggerWait_ok_statWritten (hw : ControlWords.active s.cfg.bits w = true)
    (hok : (wait p (doTrigger q w s)).1 = .ok) : (wait p (doTrigger q w s)).2.statWritten = true := by
  obtain ⟨hoff, -⟩ := doTrigger_active q w s hw
  have hlink : LinkOk (doTrigger q w s) := fun hf => absurd (hoff.symm.trans hf) Bool.false_ne_true
  obtain ⟨-, hstat⟩ := wait_link p _ hlink (wait_ok_flag p _ hok)
  exact hstat

/-- The read of STAT after `k` polls, the last of which saw FLAG = 1. -/
theorem doStatus_reached (k : Nat) {u : State} (hcfg : u.cfg = s.cfg) (hctrl : ctrlHolds w u) (hf : u.flag = true)
    (hstat : u.statWritten = true) (ht : u.trace = pollsDone k ++ .ioWrite .ctrl w :: s.trace) :
    Reached w (.done ⟨k, u.stat, u.data⟩) ((Answer.done ⟨k, u.stat, u.data⟩).events s.cfg.pollLimit.toNat w) u.script s
      (doStatus r u) := by
  rw [doStatus_flag r u hf hstat]
  exact {
    cfg := hcfg
    ctrl := hctrl
    flag := hf
    completion := by
      rintro c ⟨⟩
      exact ⟨rfl, rfl, by rw [← hcfg]; rfl⟩
    script := rfl
    trace := by simp [ht, Answer.events, logEvent] }

/-- The answer is the one that PERIPH's coming moves give. -/
theorem triggerWait_answered {a : Answer} (hw : ControlWords.active s.cfg.bits w = true)
    (ha : a.fits s.cfg.pollLimit.toNat = true) (hs : (periphTurn s).script = a.moves s.cfg.pollLimit.toNat ++ rest) :
    TriggerEnds r w rest s (wait p (doTrigger q w s)) a := by
  cases a with
  | timeout => exact triggerWait_timeout p q hw hs
  | done c => exact triggerWait_done p q r hw ha hs

/-- However PERIPH moves, it has given one of the answers. -/
theorem triggerWait_some_answer (hw : ControlWords.active s.cfg.bits w = true) :
    ∃ a rest, Answer.fits s.cfg.pollLimit.toNat a = true ∧ TriggerEnds r w rest s (wait p (doTrigger q w s)) a := by
  obtain ⟨hbus, -, hpoll, -, -, -, -, -, -, -, -, -, -, -, -, htrace⟩ := doTrigger_spec q w s
  have hcfg := (triggerWait_busOnly p q w s).cfg
  have hctrl : ctrlHolds w (wait p (doTrigger q w s)).2 := waitLoop_ctrlHolds p _ (doTrigger_ctrlHolds q)
  obtain ⟨k, hk, -, hend⟩ := waitBounded p (doTrigger q w s)
  rw [hpoll] at hk hend
  rw [htrace] at hend
  rcases hend with ⟨hok, hpos, ht, hf⟩ | ⟨htime, rfl, ht⟩
  · exact ⟨.done ⟨k, _, _⟩, _, Completion.fits_iff.2 ⟨hpos, hk⟩, hok,
      doStatus_reached r k hcfg hctrl hf (triggerWait_ok_statWritten p q hw hok) ht⟩
  · obtain ⟨hoff, -⟩ := doTrigger_active q w s hw
    exact ⟨.timeout, _, rfl, htime, {
      cfg := hcfg
      ctrl := hctrl
      flag := waitLoop_timeout_flag p _ hoff htime
      completion := nofun
      script := rfl
      trace := by rw [ht, Answer.events, List.append_assoc]; rfl }⟩

end

/-! ## TXBYTE (R170) -/

/-- TXBYTE's result under the answer to its WAIT. -/
def txEndCode (c : Config) (k : TxCodes) (a : Answer) : Byte := if txAcked c a then 0 else txFailCode k a

theorem txEndCode_timeout (c : Config) (k : TxCodes) : txEndCode c k .timeout = k.timeout := rfl

theorem txEndCode_done (c : Config) (k : TxCodes) (a : Completion) :
    txEndCode c k (.done a) = if a.stat &&& c.statusMask = c.status.txdAck then 0 else k.status := by
  simp [txEndCode, txAcked, txFailCode]

/-- The port events of TXBYTE under the answer to its WAIT, newest first. -/
def txEvents (c : Config) (v : Byte) (a : Answer) : List PortEvent :=
  a.events c.pollLimit.toNat c.cw.xfer ++ [.ioWrite .data v]

/-- TXBYTE of `v`, called in `s`, ends as `x`, its WAIT getting the answer `a`. -/
structure TxEnds (v : Byte) (k : TxCodes) (a : Answer) (rest : List PeriphMove) (s : State) (x : Byte × State) :
    Prop where
  code : x.1 = txEndCode s.cfg k a
  reached : Reached s.cfg.cw.xfer a (txEvents s.cfg v a) rest s x.2

section
variable (v : Byte) (k : TxCodes) {s : State} {rest : List PeriphMove} {a : Answer}

theorem txVerdict_of_reached {w : Byte} {c : Completion} {evs : List PortEvent} {u : State}
    (h : Reached w (.done c) evs rest s u) : txVerdict k u = txEndCode s.cfg k (.done c) := by
  obtain ⟨-, -, hst⟩ := h.completion c rfl
  rw [txVerdict, h.cfg, hst, txEndCode_done, ite_not]

theorem txByte_ends (h : TriggerEnds .tStat s.cfg.cw.xfer rest (doWriteData .tData v s) (txWait v s) a) :
    TxEnds v k a rest s (txByte v k s) := by
  have hcfg : (doWriteData .tData v s).cfg = s.cfg := (doWriteData_busOnly .tData v s).cfg
  have htrace : (doWriteData .tData v s).trace = [.ioWrite .data v] ++ s.trace := doWriteData_trace .tData v s
  cases a with
  | timeout =>
    obtain ⟨htime, hreach⟩ := h
    rw [hcfg] at hreach
    rw [txByte_timeout v k s htime]
    exact ⟨rfl, hreach.after hcfg htrace⟩
  | done c =>
    obtain ⟨hok, hreach⟩ := h
    rw [hcfg] at hreach
    rw [txByte_ok v k s hok]
    have hreach := hreach.after hcfg htrace
    exact ⟨txVerdict_of_reached k hreach, hreach⟩

/-- PERIPH has a turn before the write of DATA and one before the trigger (R79). -/
theorem periphTurn_doWriteData_script (p : Phase) :
    (periphTurn (doWriteData p v s)).script = (periphTurn (periphTurn s)).script := by
  have heq : doWriteData p v s = writeData v { periphTurn s with ph := p } := by rw [doWriteData, enter_eq]
  rw [heq]
  exact periphTurn_script_congr rfl rfl rfl

theorem txByte_answered (hw : Config.TriggersActive s.cfg) (ha : a.fits s.cfg.pollLimit.toNat = true)
    (hs : (periphTurn (periphTurn s)).script = a.moves s.cfg.pollLimit.toNat ++ rest) :
    TxEnds v k a rest s (txByte v k s) := by
  have hcfg : (doWriteData .tData v s).cfg = s.cfg := (doWriteData_busOnly .tData v s).cfg
  rw [← periphTurn_doWriteData_script v .tData] at hs
  refine txByte_ends v k ?_
  rw [← hcfg] at hw ha hs ⊢
  exact triggerWait_answered .tWait .tTrig .tStat hw.xfer ha hs

theorem txByte_some_answer (hw : Config.TriggersActive s.cfg) :
    ∃ a rest, Answer.fits s.cfg.pollLimit.toNat a = true ∧ TxEnds v k a rest s (txByte v k s) := by
  have hcfg : (doWriteData .tData v s).cfg = s.cfg := (doWriteData_busOnly .tData v s).cfg
  obtain ⟨a, rest, ha, hends⟩ :=
    triggerWait_some_answer .tWait .tTrig .tStat (s := doWriteData .tData v s) (hcfg ▸ hw).xfer
  rw [hcfg] at ha hends
  refine ⟨a, rest, ha, txByte_ends v k ?_⟩
  rwa [txWait, hcfg]

end

/-! ## SEND (R210) -/

theorem BusOnly.sameSetup {s t : State} (h : BusOnly s t) : sameSetup s t := ⟨h.div, h.pu, h.cfg, h.host⟩

theorem BusOnly.sameBuf {s t : State} (h : BusOnly s t) : sameBuf s t := fun a => congrArg (Memory.read · a) h.buf

/-- The state in which SEND calls TXBYTE. -/
def State.sendStart (val : Byte) (s : State) : State := (accepted (.send val) s).inSeg .sb

/-- SEND, executed in `s`, ends in `t`, its WAIT getting the answer `a`. -/
structure SendEnds (val : Byte) (a : Answer) (rest : List PeriphMove) (s t : State) : Prop where
  exec : exec (.send val) s = .next t
  idle : t.ph = .idle
  result : t.result = txEndCode s.cfg s.cfg.codes.sb a
  resultValid : t.resultValid = true
  reached : Reached s.cfg.cw.xfer a
    (commandEvents (.send val) (txEndCode s.cfg s.cfg.codes.sb a) (txEvents s.cfg val a)) rest s t
  setup : sameSetup s t
  buf : sameBuf s t

section
variable {val : Byte} {a : Answer} {rest : List PeriphMove} {s : State}

theorem execSend_ends (hp : s.ph = .idle)
    (h : TxEnds val s.cfg.codes.sb a rest (s.sendStart val) (txByte val s.cfg.codes.sb (s.sendStart val))) :
    ∃ t, SendEnds val a rest s t := by
  have hbus := txByte_busOnly val s.cfg.codes.sb (s.sendStart val)
  have hreach := h.reached.after (s := s) (fs := [.issued (encode (.send val))]) rfl rfl
  exact ⟨_, {
    exec := execSend_idle val s hp
    idle := rfl
    result := h.code
    resultValid := rfl
    reached := { hreach with
      trace := congrArg₂ (fun code es => PortEvent.finished (some code) :: es) h.code hreach.trace }
    setup := hbus.sameSetup
    buf := hbus.sameBuf }⟩

theorem periphMove_sendStart (m : PeriphMove) (s : State) :
    periphMove m (s.sendStart val) = (periphMove m s).sendStart val := by cases m <;> rfl

/-- The acceptance of SEND changes nothing that PERIPH's turn looks at or writes (R79). -/
theorem periphTurn_sendStart (s : State) : periphTurn (s.sendStart val) = (periphTurn s).sendStart val := by
  have hon : periphEnabled (s.sendStart val) = periphEnabled s := rfl
  have hscript : (s.sendStart val).script = s.script := rfl
  simp only [periphTurn, hon, hscript]
  split
  · split
    next m rest _ => exact periphMove_sendStart m { s with script := rest }
    next => exact periphMove_sendStart _ { s with clock := s.clock + 1 }
  · rfl

end

/-- Settles O20: the two turns of PERIPH before the WAIT are those before TXBYTE's two writes. -/
theorem sendAnswered : Obligations.SendAnswered := by
  intro val s c rest hw hp hc hs
  have hturn : (periphTurn (periphTurn (s.sendStart val))).script = (periphTurn (periphTurn s)).script := by
    rw [periphTurn_sendStart, periphTurn_sendStart]
    rfl
  have htx : TxEnds val s.cfg.codes.sb (.done c) rest (s.sendStart val) (txByte val s.cfg.codes.sb (s.sendStart val)) :=
    txByte_answered val s.cfg.codes.sb (Config.triggersActive_of_wf hw) hc (hturn.trans hs)
  obtain ⟨t, hends⟩ := execSend_ends hp htx
  obtain ⟨hstat, hdata, -⟩ := hends.reached.completion c rfl
  exact ⟨t, hends.exec, hstat, hdata, hends.reached.script, hends.result.trans (txEndCode_done ..)⟩

/-- Settles O19: PERIPH has given SEND's one WAIT a completion or a timeout. -/
theorem sendResult : Obligations.SendResult := by
  intro val s hw hp
  obtain ⟨a, rest, hfits, htx⟩ :=
    txByte_some_answer val s.cfg.codes.sb (s := s.sendStart val) (Config.triggersActive_of_wf hw)
  obtain ⟨t, hends⟩ := execSend_ends hp htx
  have hreach := hends.reached
  cases a with
  | timeout =>
    have hpos : s.cfg.pollLimit.toNat ≠ 0 := fun h => pollLimit_ne_zero hw (BitVec.eq_of_toNat_eq h)
    refine ⟨t, _, hends.exec, hends.idle, hends.resultValid, Nat.one_le_iff_ne_zero.2 hpos, Nat.le_refl _, hreach.ctrl,
      .inr ⟨hreach.flag, rfl, hends.result, ?_⟩, hends.setup, hends.buf⟩
    rw [hreach.trace, txEndCode_timeout]
    simp [commandEvents, txEvents, Answer.events]
  | done c =>
    obtain ⟨hpos, hle⟩ := Completion.fits_iff.1 hfits
    obtain ⟨hstat, -, -⟩ := hreach.completion c rfl
    refine ⟨t, c.k, hends.exec, hends.idle, hends.resultValid, hpos, hle, hreach.ctrl,
      .inl ⟨hreach.flag, ?_, ?_⟩, hends.setup, hends.buf⟩
    · rw [hends.result, txEndCode_done, hstat]
    · rw [hreach.trace, hends.result, hstat]
      simp [commandEvents, txEvents, Answer.events]

/-! ## The words that BEGIN writes to CTRL (R200) -/

/-- From `s` to `t` only words of `ws` are written to CTRL. -/
def CtrlWordsIn (ws : List Byte) (s t : State) : Prop := ∃ vs ⊆ ws, ctrlWords t.trace = vs ++ ctrlWords s.trace

section
variable {ws : List Byte} {s t u : State}

theorem CtrlWordsIn.of_trace (h : t.trace = s.trace) : CtrlWordsIn ws s t :=
  ⟨[], List.nil_subset ws, by rw [h, List.nil_append]⟩

theorem CtrlWordsIn.trans (h : CtrlWordsIn ws s t) (k : CtrlWordsIn ws t u) : CtrlWordsIn ws s u := by
  obtain ⟨vs, hvs, ht⟩ := h
  obtain ⟨us, hus, hu⟩ := k
  exact ⟨us ++ vs, List.append_subset.2 ⟨hus, hvs⟩, by rw [hu, ht, List.append_assoc]⟩

/-- Of one port event only a write of CTRL counts. -/
theorem CtrlWordsIn.of_event {e : PortEvent} (h : t.trace = e :: s.trace) (he : ctrlWords [e] ⊆ ws) :
    CtrlWordsIn ws s t :=
  ⟨ctrlWords [e], he, by rw [h, ← List.singleton_append, ctrlWords_append]⟩

theorem CtrlWordsIn.events {evs : List PortEvent} (h : CtrlWordsIn ws s t) (ht : t.trace = evs ++ s.trace) :
    ctrlWords evs ⊆ ws := by
  obtain ⟨vs, hvs, heq⟩ := h
  rw [ht, ctrlWords_append, List.append_cancel_right_eq] at heq
  exact heq ▸ hvs

theorem doTrigger_ctrlWordsIn (p : Phase) {w : Byte} (s : State) (hw : w ∈ ws) :
    CtrlWordsIn ws s (doTrigger p w s) := by
  obtain ⟨-, -, -, -, -, -, -, -, -, -, -, -, -, -, -, htrace⟩ := doTrigger_spec p w s
  exact .of_event htrace (List.cons_subset.2 ⟨hw, List.nil_subset ws⟩)

theorem doPoll_ctrlWordsIn (p : Phase) (s : State) : CtrlWordsIn ws s (doPoll p s).2 := by
  have htrace : (doPoll p s).2.trace = .poll (enter p s).flag :: s.trace := by simp [doPoll_eq]
  exact .of_event htrace (List.nil_subset ws)

theorem readStat_ctrlWordsIn (s : State) : CtrlWordsIn ws s (readStat s).2 := by
  unfold readStat
  split
  · exact .of_event (logEvent_trace s _) (List.nil_subset ws)
  · exact .of_event (logEvent_trace _ _) (List.nil_subset ws)

theorem doStatus_ctrlWordsIn (p : Phase) (s : State) : CtrlWordsIn ws s (doStatus p s) :=
  (CtrlWordsIn.of_trace (enter_trace p s)).trans (readStat_ctrlWordsIn _)

theorem doWriteData_ctrlWordsIn (p : Phase) (v : Byte) (s : State) : CtrlWordsIn ws s (doWriteData p v s) :=
  .of_event (doWriteData_trace p v s) (List.nil_subset ws)

theorem waitLoop_ctrlWordsIn (p : Phase) (n : Nat) (s : State) : CtrlWordsIn ws s (waitLoop p n s).2 := by
  induction n generalizing s with
  | zero => exact .of_trace rfl
  | succ n ih =>
    simp only [waitLoop]
    split
    · exact doPoll_ctrlWordsIn p s
    · exact (doPoll_ctrlWordsIn p s).trans (ih _)

theorem triggerWait_ctrlWordsIn (p q : Phase) {w : Byte} (s : State) (hw : w ∈ ws) :
    CtrlWordsIn ws s (wait p (doTrigger q w s)).2 := (doTrigger_ctrlWordsIn q s hw).trans (waitLoop_ctrlWordsIn p _ _)

end

section
variable {ws : List Byte} (dev : BitVec 7) (dir : Dir) (c : AddrCodes) {s : State} (hstart : s.cfg.cw.start ∈ ws)
  (hxfer : s.cfg.cw.xfer ∈ ws)
include hstart hxfer

/-- An attempt of ADDRESS writes CW_START, and CW_XFER where the start went well (R165). -/
theorem addressAttempt_ctrlWordsIn : CtrlWordsIn ws s (addressAttempt dev dir c s).2 := by
  have hwait : CtrlWordsIn ws s (startWait s).2 := triggerWait_ctrlWordsIn .aStartWait .aStart s hstart
  have hstat : CtrlWordsIn ws s (startStat s) := hwait.trans (doStatus_ctrlWordsIn .aStartStat _)
  have hcfg : (doWriteData .aAddrData (addrByte dev dir) (startStat s)).cfg = s.cfg :=
    (doWriteData_busOnly ..).cfg.trans (startStat_busOnly s).cfg
  have haddr : CtrlWordsIn ws s (addrWait dev dir (startStat s)).2 :=
    (hstat.trans (doWriteData_ctrlWordsIn ..)).trans (triggerWait_ctrlWordsIn .aAddrWait .aAddrTrig _ (by rwa [hcfg]))
  cases he : (startWait s).1 with
  | timeout => rw [addressAttempt_startTimeout _ _ c s he]; exact hwait
  | ok =>
    cases hs : isStartStatus (startStat s).cfg.status (startStat s).st with
    | false => rw [addressAttempt_startStatus _ _ c s he hs]; exact hstat
    | true =>
      cases ha : (addrWait dev dir (startStat s)).1 with
      | timeout => rw [addressAttempt_addrTimeout _ _ c s he hs ha]; exact haddr
      | ok => rw [addressAttempt_addrOk _ _ c s he hs ha]; exact haddr.trans (doStatus_ctrlWordsIn .aAddrStat _)

theorem addressLoop_ctrlWordsIn (n : Nat) : CtrlWordsIn ws s (addressLoop dev dir c n s).2 := by
  induction n using Nat.strong_induction_on generalizing s with | _ n ih
  have hattempt := addressAttempt_ctrlWordsIn dev dir c hstart hxfer
  cases h : (addressAttempt dev dir c s).1 with
  | some code => rw [addressLoop_failed _ _ c s n h]; exact hattempt
  | none =>
    by_cases hn : (addressAttempt dev dir c s).2.st = nackOf (addressAttempt dev dir c s).2.cfg.status dir ∧ n ≠ 0
    · obtain ⟨hnack, hpos⟩ := hn
      obtain ⟨m, rfl⟩ := Nat.exists_eq_succ_of_ne_zero hpos
      rw [← (addressAttempt_busOnly dev dir c s).cfg] at hstart hxfer
      have hnext : CtrlWordsIn ws (addressAttempt dev dir c s).2 (addressAttempt dev dir c s).2.nextAttempt :=
        .of_trace rfl
      rw [addressLoop_retry _ _ c s m h hnack]
      exact hattempt.trans (hnext.trans (ih m (Nat.lt_succ_self m) hstart hxfer))
    · rw [addressLoop_verdict _ _ c s n h hn]
      exact hattempt

theorem address_ctrlWordsIn : CtrlWordsIn ws s (address dev dir c s).2 :=
  (CtrlWordsIn.of_trace rfl).trans (addressLoop_ctrlWordsIn dev dir c (s := s.addressStart dir) hstart hxfer _)

end

/-! ## BEGIN whatever PERIPH does (R200) -/

section
variable (s : State)

theorem runBegin_result : (runBegin s).result = 0 ∨ (runBegin s).result ∈ s.cfg.codes.bt.toList :=
  address_code s.dev .write s.cfg.codes.bt (s.inSeg .bt)

theorem runBegin_moved : ∃ n, Moved s (runBegin s) (addressSends s.dev .write n) := by
  obtain ⟨n, haddr⟩ := address_moved (s.inSeg .bt) s.dev .write s.cfg.codes.bt
  exact ⟨n, (Moved.of_trace (t := s.inSeg .bt) rfl).quiet_trans (haddr.trans_quiet (finish_moved _ _))⟩

theorem runBegin_ctrlWordsIn : CtrlWordsIn [s.cfg.cw.start, s.cfg.cw.xfer] s (runBegin s) := by
  have hseg : CtrlWordsIn [s.cfg.cw.start, s.cfg.cw.xfer] s (s.inSeg .bt) := .of_trace rfl
  have haddr := address_ctrlWordsIn s.dev .write s.cfg.codes.bt (s := s.inSeg .bt)
    (List.mem_cons_self (l := [s.cfg.cw.xfer])) (List.mem_cons_of_mem s.cfg.cw.start List.mem_cons_self)
  exact hseg.trans (haddr.trans (.of_event (finish_trace _ _) (List.nil_subset _)))

theorem runBegin_frame : sameSetup s (runBegin s) ∧ sameBuf s (runBegin s) :=
  have hframe := address_busOnly s.dev .write s.cfg.codes.bt (s.inSeg .bt)
  ⟨⟨hframe.div, hframe.pu, hframe.cfg, hframe.host⟩, hframe.sameBuf⟩

end

/-- Settles O21: the transfers are those of BEGIN's ADDRESS, and its words are CW_START and CW_XFER. -/
theorem beginCompletes : Obligations.BeginCompletes := by
  intro dev s hp
  have hexec := execBegin_idle dev s hp
  obtain ⟨evs, -, htrace, hvalid⟩ := (exec_endsWithStatus rfl hexec).events
  rw [← List.cons_append] at htrace
  obtain ⟨n, hmoved⟩ := runBegin_moved (accepted (.beginTrans dev) s)
  rw [accepted_beginTrans_dev] at hmoved
  have htransfers := ((accepted_moved (.beginTrans dev) s).quiet_trans hmoved).events htrace
  obtain ⟨hsent, hread, -, hwritten⟩ := readers_addressSends dev .write n
  have haccept : CtrlWordsIn [s.cfg.cw.start, s.cfg.cw.xfer] s (accepted (.beginTrans dev) s) :=
    .of_event (accepted_trace s (.beginTrans dev)) (List.nil_subset _)
  have hwords := (haccept.trans (runBegin_ctrlWordsIn (accepted (.beginTrans dev) s))).events htrace
  obtain ⟨hsetup, hbuf⟩ := runBegin_frame (accepted (.beginTrans dev) s)
  refine ⟨_, _, hexec, rfl, hvalid, runBegin_result _, htrace, rfl, fun w hw => ?_, fun v hv => ?_, ?_, ?_,
    hsetup, hbuf⟩
  · simpa using hwords hw
  · rw [← htransfers, dataBytes_transfers] at hsent
    exact List.eq_of_mem_replicate (hsent ▸ List.mem_reverse.2 hv)
  · rwa [← htransfers, bufReads_transfers, List.reverse_eq_nil_iff] at hread
  · rwa [← htransfers, bufWrites_transfers, List.reverse_eq_nil_iff] at hwritten

end Sys2Proof.Machine
end

-- ==== What WRBLK and RDBLK write under PERIPH's answers ====
section
/-! PROOFS. The layer under the statements about WRBLK and RDBLK that fix PERIPH's answers (R84). `Accessed` gives the
words written to CTRL and the transfers of a stretch of accesses, in order; TXBYTE, the receive requests and STOPSEQ make
the same ones whatever PERIPH does. `Served` adds what the stretch leaves of PERIPH's moves, so that stretches are put
together one after the other; ADDRESS and TXBYTE get one lemma each. -/

namespace Sys2Proof.Machine

/-! ## The words and the transfers of a stretch of accesses -/

/-- From `s` to `t` CTRL receives the words `ws` and the transfers are `ms`, oldest first. -/
structure Accessed (ws : List Byte) (ms : List PortEvent) (s t : State) : Prop where
  words : (ctrlWords t.trace).reverse = (ctrlWords s.trace).reverse ++ ws
  moved : Moved s t ms

section
variable {ws vs : List Byte} {ms ns : List PortEvent} {s t u : State}

theorem Accessed.of_trace (h : t.trace = s.trace) : Accessed [] [] s t :=
  ⟨by rw [h, List.append_nil], .of_trace h⟩

theorem Accessed.trans (h : Accessed ws ms s t) (k : Accessed vs ns t u) : Accessed (ws ++ vs) (ms ++ ns) s u :=
  ⟨by rw [k.words, h.words, List.append_assoc], h.moved.trans k.moved⟩

/-- Accesses that neither write CTRL nor move a byte, before others. -/
theorem Accessed.quiet_trans (h : Accessed [] [] s t) (k : Accessed ws ms t u) : Accessed ws ms s u := h.trans k

/-- Accesses that neither write CTRL nor move a byte, after others. -/
theorem Accessed.trans_quiet (h : Accessed ws ms s t) (k : Accessed [] [] t u) : Accessed ws ms s u := by
  have := h.trans k
  rwa [List.append_nil, List.append_nil] at this

/-- Port events that are no writes of CTRL, `ms` being the transfers of the stretch. -/
theorem Accessed.of_events {es : List PortEvent} (h : t.trace = es ++ s.trace) (hes : ctrlWords es = [])
    (hm : Moved s t ms) : Accessed [] ms s t :=
  ⟨by rw [h, ctrlWords_append, hes, List.nil_append, List.append_nil], hm⟩

theorem Accessed.events {evs : List PortEvent} (h : Accessed ws ms s t) (ht : t.trace = evs ++ s.trace) :
    (ctrlWords evs).reverse = ws ∧ transfers evs = ms := by
  have hwords := h.words
  rw [ht, ctrlWords_append, List.reverse_append] at hwords
  exact ⟨List.append_cancel_left hwords, h.moved.events ht⟩

theorem Accessed.ctrlWordsIn {xs : List Byte} (h : Accessed ws ms s t) (hws : ws ⊆ xs) : CtrlWordsIn xs s t :=
  ⟨ws.reverse, fun _ hx => hws (List.mem_reverse.1 hx), by
    rw [← List.reverse_reverse (ctrlWords t.trace), h.words, List.reverse_append, List.reverse_reverse]⟩

end

section
variable (s : State)

theorem accepted_accessed (i : Instr) : Accessed [] [] s (accepted i s) :=
  .of_events (es := [.issued (encode i)]) (accepted_trace s i) rfl (accepted_moved i s)

theorem finish_accessed (c : Byte) : Accessed [] [] s (finish c s) :=
  .of_events (es := [.finished (some c)]) rfl rfl (finish_moved c s)

theorem doTrigger_accessed (p : Phase) (w : Byte) : Accessed [w] [] s (doTrigger p w s) := by
  obtain ⟨-, -, -, -, -, -, -, -, -, -, -, -, -, -, -, htrace⟩ := doTrigger_spec p w s
  refine ⟨?_, doTrigger_moved s p w⟩
  rw [htrace]
  exact List.reverse_cons

/-- WAIT only polls (R160). -/
theorem wait_polls (p : Phase) : ∃ ps, (wait p s).2.trace = ps ++ s.trace ∧ ctrlWords ps = [] := by
  obtain ⟨k, -, -, ⟨-, -, htrace, -⟩ | ⟨-, -, htrace⟩⟩ := waitBounded p s
  · exact ⟨_, htrace, (readers_pollsDone k).1⟩
  · exact ⟨_, htrace, (readers_pollsTimeout k).1⟩

theorem triggerWait_accessed (p q : Phase) (w : Byte) : Accessed [w] [] s (wait p (doTrigger q w s)).2 := by
  obtain ⟨ps, htrace, hps⟩ := wait_polls (doTrigger q w s) p
  exact (doTrigger_accessed s q w).trans_quiet (.of_events htrace hps (waitLoop_moved _ p _))

/-- The read of STAT for a status check, with the byte that it returned (R74, R127). -/
theorem doStatus_read (p : Phase) :
    ∃ v, (doStatus p s).trace = [.ioRead .stat v] ++ s.trace ∧ (doStatus p s).st = v &&& s.cfg.statusMask := by
  cases h : (enter p s).statWritten with
  | true => exact ⟨(enter p s).stat, by simp [doStatus, readStat_written _ h], by
      simp [doStatus, readStat_written _ h, maskStatus]⟩
  | false => exact ⟨Config.freeByte s.draws, by simp [doStatus, readStat_unwritten _ h], by
      simp [doStatus, readStat_unwritten _ h, maskStatus]⟩

theorem doStatus_accessed (p : Phase) : Accessed [] [] s (doStatus p s) := by
  obtain ⟨v, htrace, -⟩ := doStatus_read s p
  exact .of_events htrace rfl (doStatus_moved s p)

theorem doWriteData_accessed (p : Phase) (v : Byte) : Accessed [] [.ioWrite .data v] s (doWriteData p v s) :=
  .of_events (es := [.ioWrite .data v]) (doWriteData_trace p v s) rfl (doWriteData_moved s p v)

/-- Whatever PERIPH does, TXBYTE writes its byte to DATA and CW_XFER to CTRL (R170). -/
theorem txByte_accessed (v : Byte) (k : TxCodes) :
    Accessed [s.cfg.cw.xfer] [.ioWrite .data v] s (txByte v k s).2 := by
  have hwait : Accessed [s.cfg.cw.xfer] [.ioWrite .data v] s (txWait v s).2 := by
    have htrigger := triggerWait_accessed (doWriteData .tData v s) .tWait .tTrig (doWriteData .tData v s).cfg.cw.xfer
    have hcfg : (doWriteData .tData v s).cfg = s.cfg := (doWriteData_busOnly ..).cfg
    rw [hcfg] at htrigger
    rw [txWait, hcfg]
    exact (doWriteData_accessed s .tData v).trans htrigger
  cases he : (txWait v s).1 with
  | timeout => rw [txByte_timeout v k s he]; exact hwait
  | ok => rw [txByte_ok v k s he]; exact hwait.trans_quiet (doStatus_accessed _ .tStat)

/-- Whatever PERIPH does, STOPSEQ writes CW_STOP to CTRL and moves nothing (R180). -/
theorem stopSeq_accessed : Accessed [s.cfg.cw.stop] [] s (stopSeq s).2 := triggerWait_accessed s .sWait .sTrig _

theorem stopSeq_ctrlHolds : ctrlHolds s.cfg.cw.stop (stopSeq s).2 :=
  waitLoop_ctrlHolds .sWait _ (doTrigger_ctrlHolds .sTrig)

end

/-! ## The final state of a command, and its port events -/

/-- What a command that returns a status, executed in `s`, has done when it ends in `t`. -/
theorem Accessed.command {i : Instr} {s t : State} {ws : List Byte} {ms : List PortEvent}
    (h : Accessed ws ms s t) (hi : returnsStatus i = true) (hexec : exec i s = .next t) :
    ∃ evs, t.trace = evs ++ s.trace ∧ evs.head? = some (.finished (some t.result)) ∧
      (ctrlWords evs).reverse = ws ∧ transfers evs = ms := by
  obtain ⟨evs, -, htrace, -⟩ := (exec_endsWithStatus hi hexec).events
  rw [← List.cons_append] at htrace
  exact ⟨_, htrace, rfl, h.events htrace⟩

/-! ## Stretches under given answers -/

/-- The stretch of accesses from `s` to `t` under PERIPH's answers: FLAG is then `on` and `rest` is left of the
moves. -/
structure Served (on : Bool) (rest : List PeriphMove) (ws : List Byte) (ms : List PortEvent) (s t : State) : Prop where
  cfg : t.cfg = s.cfg
  flag : t.flag = on
  script : t.script = rest
  accessed : Accessed ws ms s t

theorem Served.trans {on on' : Bool} {rest rest' : List PeriphMove} {ws vs : List Byte} {ms ns : List PortEvent}
    {s t u : State} (h : Served on rest ws ms s t) (k : Served on' rest' vs ns t u) :
    Served on' rest' (ws ++ vs) (ms ++ ns) s u :=
  ⟨k.cfg.trans h.cfg, k.flag, k.script, h.accessed.trans k.accessed⟩

/-- A step before the stretch that makes no access and keeps the parameters. -/
theorem Served.after_quiet {on : Bool} {rest : List PeriphMove} {ws : List Byte} {ms : List PortEvent} {s t u : State}
    (h : Served on rest ws ms t u) (hcfg : t.cfg = s.cfg) (ht : Accessed [] [] s t) : Served on rest ws ms s u :=
  ⟨h.cfg.trans hcfg, h.flag, h.script, ht.quiet_trans h.accessed⟩

/-! ### ADDRESS (R165, R166) -/

/-- Is FLAG 1 where ADDRESS ends so? -/
def AddrEnd.completes : AddrEnd → Bool
  | .startTimeout => false
  | .addrTimeout => false
  | _ => true

theorem LastAttempt.completes {c : Config} {dir : Dir} {n : Nat} {e : AddrEnd} {last : List Answer}
    (h : LastAttempt c dir n e last) {a : Answer} (ha : last.getLast? = some a) : a.completes = e.completes := by
  cases h <;> cases ha <;> rfl

theorem bufReads_addressSends (dev : BitVec 7) (dir : Dir) (n : Nat) : bufReads (addressSends dev dir n) = [] := by
  obtain ⟨-, hreads, -, -⟩ := readers_addressSends dev dir n
  exact hreads

theorem bufWrites_addressSends (dev : BitVec 7) (dir : Dir) (n : Nat) : bufWrites (addressSends dev dir n) = [] := by
  obtain ⟨-, -, -, hwrites⟩ := readers_addressSends dev dir n
  exact hwrites

/-- The transfers of an ADDRESS are known by the number of its bytes. -/
theorem addressSends_of_dataBytes {dev : BitVec 7} {dir : Dir} {evs : List PortEvent} {m n : Nat}
    (h : transfers evs = addressSends dev dir n) (hbytes : dataBytes evs = List.replicate m (addrByte dev dir)) :
    n = m := by
  have hlen := congrArg (List.length ∘ dataBytes) h
  rwa [Function.comp_apply, Function.comp_apply, dataBytes_transfers, hbytes, (readers_addressSends dev dir n).1,
    List.length_reverse, List.length_replicate, List.length_replicate, eq_comm] at hlen

/-- The number of address bytes that ADDRESS sends under these answers. -/
def addressCount (nacks : List (Completion × Completion)) (last : List Answer) : Nat := nacks.length + (last.length - 1)

theorem dataBytes_addressSends_count (dev : BitVec 7) (dir : Dir) (nacks : List (Completion × Completion))
    (last : List Answer) :
    dataBytes (addressSends dev dir (addressCount nacks last)) = addressBytes dev dir nacks last :=
  (readers_addressSends dev dir _).1

theorem address_served (dev : BitVec 7) (dir : Dir) (c : AddrCodes) {s : State} {rest : List PeriphMove}
    (hw : s.cfg.wf = true) {e : AddrEnd} {nacks : List (Completion × Completion)} {last : List Answer}
    (h : AddressAnswered s.cfg dir e nacks last) (hs : (periphTurn s).script = addressMoves s.cfg nacks last ++ rest) :
    (address dev dir c s).1 = addrEndCode c e ∧
      Served e.completes rest (addressWords s.cfg nacks last) (addressSends dev dir (addressCount nacks last)) s
        (address dev dir c s).2 := by
  obtain ⟨⟨hcode, a, hlast, hreach⟩, -⟩ := address_ends dev dir c hw h hs
  obtain ⟨n, hmoved⟩ := address_moved s dev dir c
  have hn : n = addressCount nacks last :=
    addressSends_of_dataBytes (hmoved.events hreach.trace) (h.last.dataBytes_addressEvents dev nacks)
  refine ⟨hcode, hreach.cfg, hreach.flag.trans (h.last.completes hlast), hreach.script, ?_, hn ▸ hmoved⟩
  rw [hreach.trace, ctrlWords_append, h.last.ctrlWords_addressEvents, List.reverse_append, addressWords]
  simp [List.reverse_flatten]

/-! ### TXBYTE (R170) -/

/-- TXBYTE, called with FLAG = 1. -/
theorem txByte_served (v : Byte) (k : TxCodes) {s : State} {rest : List PeriphMove} {a : Answer} (hw : s.cfg.wf = true)
    (ha : a.fits s.cfg.pollLimit.toNat = true) (hf : s.flag = true)
    (hs : s.script = a.moves s.cfg.pollLimit.toNat ++ rest) :
    (txByte v k s).1 = txEndCode s.cfg k a ∧
      Served a.completes rest [s.cfg.cw.xfer] [.ioWrite .data v] s (txByte v k s).2 := by
  obtain ⟨hcode, hreach⟩ := txByte_answered v k (Config.triggersActive_of_wf hw) ha
    (by rw [periphTurn_of_flag hf, periphTurn_of_flag hf, hs])
  exact ⟨hcode, hreach.cfg, hreach.flag, hreach.script, txByte_accessed s v k⟩

/-- Only a completion acknowledges a byte. -/
theorem completes_of_txAcked {c : Config} {a : Answer} (h : txAcked c a = true) : a.completes = true := by
  cases a with
  | timeout => cases h
  | done b => rfl

theorem txEndCode_of_acked {c : Config} {k : TxCodes} {a : Answer} (h : txAcked c a = true) : txEndCode c k a = 0 :=
  if_pos h

theorem txEndCode_of_not_acked {c : Config} {k : TxCodes} {a : Answer} (h : txAcked c a = false) :
    txEndCode c k a = txFailCode k a := if_neg (by rw [h]; exact Bool.false_ne_true)

/-! ## No failure code is 0 (R11) -/

theorem ResultCodes.ne_zero_of_group {m : Byte} {cs : List Byte} (h : ResultCodes.group m cs = true) :
    ∀ c ∈ cs, c ≠ 0 := by
  intro c hc
  simp only [ResultCodes.group, Bool.and_eq_true, List.all_eq_true] at h
  obtain ⟨-, hall⟩ := h
  obtain ⟨hpos, -⟩ : 1#8 ≤ c ∧ c ≤ m := by simpa using hall c hc
  bv_omega

/-- The codes of R11 are none of them 0. -/
structure ResultCodes.NonZero (c : ResultCodes) : Prop where
  bt : ∀ x ∈ c.bt.toList, x ≠ 0
  sb : ∀ x ∈ c.sb.toList, x ≠ 0
  wb : ∀ x ∈ c.wb.toList, x ≠ 0
  wbReg : ∀ x ∈ c.wbReg.toList, x ≠ 0
  wbData : ∀ x ∈ c.wbData.toList, x ≠ 0
  rbA : ∀ x ∈ c.rbA.toList, x ≠ 0
  rbReg : ∀ x ∈ c.rbReg.toList, x ≠ 0
  rbB : ∀ x ∈ c.rbB.toList, x ≠ 0

theorem Config.codes_nonZero {c : Config} (h : c.wf = true) : ResultCodes.NonZero c.codes := by
  simp only [Config.wf, Bool.and_eq_true] at h
  obtain ⟨-, hcodes⟩ := h
  simp only [ResultCodes.wf, Bool.and_eq_true] at hcodes
  obtain ⟨⟨⟨⟨hbt, hsb⟩, -⟩, hwb⟩, hrb⟩ := hcodes
  have hwb := ResultCodes.ne_zero_of_group hwb
  have hrb := ResultCodes.ne_zero_of_group hrb
  simp only [List.mem_append, or_imp, forall_and] at hwb hrb
  obtain ⟨⟨hwbAddr, hwbReg⟩, hwbData⟩ := hwb
  obtain ⟨⟨⟨hrbA, hrbReg⟩, hrbB⟩, -⟩ := hrb
  exact ⟨ResultCodes.ne_zero_of_group hbt, ResultCodes.ne_zero_of_group hsb, hwbAddr, hwbReg, hwbData, hrbA, hrbReg,
    hrbB⟩

theorem addrEndCode_ne_zero {c : AddrCodes} (hc : ∀ x ∈ c.toList, x ≠ 0) {e : AddrEnd} (he : e ≠ .acked) :
    addrEndCode c e ≠ 0 := by
  cases e with
  | acked => exact absurd rfl he
  | startTimeout => exact hc c.startTimeout (by simp [AddrCodes.toList])
  | startStatus => exact hc c.startStatus (by simp [AddrCodes.toList])
  | addrTimeout => exact hc c.addrTimeout (by simp [AddrCodes.toList])
  | addrStatus => exact hc c.addrStatus (by simp [AddrCodes.toList])

theorem txFailCode_ne_zero {k : TxCodes} (hk : ∀ x ∈ k.toList, x ≠ 0) (a : Answer) : txFailCode k a ≠ 0 := by
  cases a with
  | timeout => exact hk k.timeout (by simp [TxCodes.toList])
  | done c => exact hk k.status (by simp [TxCodes.toList])

end Sys2Proof.Machine
end

-- ==== WRBLK under PERIPH's answers and under any ====
section
/-! PROOFS. WRBLK under given answers of PERIPH, obligations O29 and O30, and whatever PERIPH does, obligation O27. The
addressing, the register address and the data loop are `Served` stretches; the acknowledged bytes of the data loop go by
induction on their list (`writeLoop_acked`), and each end of WRBLK is a chain of the stretches before it. -/

namespace Sys2Proof.Machine

section
variable {v : State} {rest : List PeriphMove} {nacks : List (Completion × Completion)} {last : List Answer} {a : Answer}

/-! ## The addressing and the register address (R220) -/

/-- TXBYTE of a byte after a stretch that leaves FLAG = 1. -/
theorem Served.txByte {ws : List Byte} {ms : List PortEvent} {u : State}
    (h : Served true (a.moves v.cfg.pollLimit.toNat ++ rest) ws ms v u) (hw : v.cfg.wf = true)
    (ha : a.fits v.cfg.pollLimit.toNat = true) (g : Seg) (b : Byte) (k : TxCodes) :
    (txByte b k (u.inSeg g)).1 = txEndCode v.cfg k a ∧
      Served a.completes rest (ws ++ [v.cfg.cw.xfer]) (ms ++ [.ioWrite .data b]) v (txByte b k (u.inSeg g)).2 := by
  have hcfg : (u.inSeg g).cfg = v.cfg := h.cfg
  obtain ⟨hcode, hserved⟩ := txByte_served b k (s := u.inSeg g) (hcfg ▸ hw) (hcfg ▸ ha) h.flag
    (by rw [hcfg]; exact h.script)
  rw [hcfg] at hcode hserved
  exact ⟨hcode, h.trans (hserved.after_quiet rfl (.of_trace rfl))⟩

theorem wbAddress_served (hw : v.cfg.wf = true) {e : AddrEnd} (h : AddressAnswered v.cfg .write e nacks last)
    (hs : (periphTurn v).script = addressMoves v.cfg nacks last ++ rest) :
    (wbAddress v).1 = addrEndCode v.cfg.codes.wb e ∧
      Served e.completes rest (addressWords v.cfg nacks last) (addressSends v.dev .write (addressCount nacks last)) v
        (wbAddress v).2 := by
  rw [← periphTurn_script_congr (s := v) (t := v.inSeg .wbAddr) rfl rfl rfl] at hs
  obtain ⟨hcode, hserved⟩ := address_served v.dev .write v.cfg.codes.wb (s := v.inSeg .wbAddr) hw h hs
  exact ⟨hcode, hserved.after_quiet rfl (.of_trace rfl)⟩

/-- The register address after an acknowledged addressing. -/
theorem wbRegByte_served (hw : v.cfg.wf = true) (h : AddressAnswered v.cfg .write .acked nacks last)
    (ha : a.fits v.cfg.pollLimit.toNat = true)
    (hs : (periphTurn v).script = addressMoves v.cfg nacks last ++ (a.moves v.cfg.pollLimit.toNat ++ rest)) :
    (wbAddress v).1 = 0 ∧ (wbRegByte v).1 = txEndCode v.cfg v.cfg.codes.wbReg a ∧
      Served a.completes rest (addressWords v.cfg nacks last ++ [v.cfg.cw.xfer])
        (addressSends v.dev .write (addressCount nacks last) ++ [.ioWrite .data v.rega]) v (wbRegByte v).2 := by
  obtain ⟨hcode, haddr⟩ := wbAddress_served hw h hs
  have hsend := haddr.txByte hw ha .wbReg v.rega v.cfg.codes.wbReg
  rw [wbRegByte, wbAddress_rega, wbAddress_cfg]
  exact ⟨hcode, hsend⟩

end

/-! ## The data loop (R220, R221) -/

/-- The state in which the byte `b`, just fetched, is sent, FLAG being 1 at the fetch. -/
def State.fetched (b : Byte) (s : State) : State :=
  logEvent (.bufRead s.idx.toNat b) { s with ph := .tFetch, txb := b }

theorem doFetch_of_flag {s : State} {b : Byte} (hf : s.flag = true) (hread : Memory.read s.buf s.idx.toNat = some b) :
    doFetch s = some (s.fetched b) := by rw [doFetch_some s b hread, enter_flag _ s hf, State.fetched]

section
variable {s : State} {rest : List PeriphMove} {a : Answer} {b : Byte}

/-- One byte of the data loop, under the answer to its WAIT. -/
theorem sendFetched_served (hw : s.cfg.wf = true) (hf : s.flag = true) (ha : a.fits s.cfg.pollLimit.toNat = true)
    (hs : s.script = a.moves s.cfg.pollLimit.toNat ++ rest) :
    (sendFetched (s.fetched b)).1 = txEndCode s.cfg s.cfg.codes.wbData a ∧
      Served a.completes rest [s.cfg.cw.xfer] (sentBytes s.idx.toNat [b]) s (sendFetched (s.fetched b)).2 := by
  obtain ⟨hcode, hserved⟩ := txByte_served b s.cfg.codes.wbData (s := s.fetched b) hw ha hf hs
  have hfetch : Accessed [] [.bufRead s.idx.toNat b] s (s.fetched b) :=
    .of_events (es := [.bufRead s.idx.toNat b]) rfl rfl (.of_transfer rfl rfl)
  exact ⟨hcode, hserved.cfg, hserved.flag, hserved.script, hfetch.trans hserved.accessed⟩

theorem writeLoop_byte_acked (n : Nat) (hw : s.cfg.wf = true) (hf : s.flag = true)
    (hread : Memory.read s.buf s.idx.toNat = some b) (ha : a.fits s.cfg.pollLimit.toNat = true)
    (hack : txAcked s.cfg a = true) (hs : s.script = a.moves s.cfg.pollLimit.toNat ++ rest) :
    writeLoop (n + 1) s = writeLoop n (sendFetched (s.fetched b)).2.nextByte ∧
      Served true rest [s.cfg.cw.xfer] (sentBytes s.idx.toNat [b]) s (sendFetched (s.fetched b)).2.nextByte := by
  obtain ⟨hcode, hserved⟩ := sendFetched_served (b := b) hw hf ha hs
  rw [txEndCode_of_acked hack] at hcode
  rw [completes_of_txAcked hack] at hserved
  rw [writeLoop_fetch n (doFetch_of_flag hf hread), if_neg (not_not.2 hcode)]
  exact ⟨rfl, hserved.cfg, hserved.flag, hserved.script, hserved.accessed.trans_quiet (.of_trace rfl)⟩

theorem writeLoop_byte_failed (n : Nat) (hw : s.cfg.wf = true) (hf : s.flag = true)
    (hread : Memory.read s.buf s.idx.toNat = some b) (ha : a.fits s.cfg.pollLimit.toNat = true)
    (hack : txAcked s.cfg a = false) (hs : s.script = a.moves s.cfg.pollLimit.toNat ++ rest) :
    (writeLoop (n + 1) s).1 = .code (txFailCode s.cfg.codes.wbData a) ∧
      Served a.completes rest [s.cfg.cw.xfer] (sentBytes s.idx.toNat [b]) s (writeLoop (n + 1) s).2 := by
  obtain ⟨hcode, hserved⟩ := sendFetched_served (b := b) hw hf ha hs
  rw [txEndCode_of_not_acked hack] at hcode
  rw [writeLoop_fetch n (doFetch_of_flag hf hread),
    if_pos (hcode ▸ txFailCode_ne_zero (Config.codes_nonZero hw).wbData a)]
  exact ⟨congrArg BlockEnd.code hcode, hserved⟩

end

theorem Memory.holds_cons_iff {m : Memory} {k : Nat} {b : Byte} {bs : List Byte} :
    Memory.Holds m k (b :: bs) ↔ Memory.read m k = some b ∧ Memory.Holds m (k + 1) bs := by
  refine ⟨fun h => ⟨h 0 (Nat.zero_lt_succ _), fun i hi => ?_⟩, fun ⟨hb, hbs⟩ => Memory.holds_cons hb hbs⟩
  have hat := h (i + 1) (Nat.succ_lt_succ hi)
  rwa [← Nat.add_assoc, Nat.add_right_comm] at hat

/-- From `s` the data loop has sent the bytes `bs`, all acknowledged, and stands in `u` at its next byte. -/
structure SentBytes (bs : List Byte) (rest : List PeriphMove) (s u : State) : Prop where
  served : Served true rest (List.replicate bs.length s.cfg.cw.xfer) (sentBytes s.idx.toNat bs) s u
  idx : u.idx.toNat = s.idx.toNat + bs.length
  buf : u.buf = s.buf

/-- Acknowledged bytes go by one after the other. -/
theorem writeLoop_acked (n : Nat) {bs : List Byte} {acks : List Answer} {s : State} {rest : List PeriphMove}
    (hw : s.cfg.wf = true) (hf : s.flag = true) (hlen : acks.length = bs.length)
    (hacks : ∀ a ∈ acks, a.fits s.cfg.pollLimit.toNat = true ∧ txAcked s.cfg a = true)
    (hbs : Memory.Holds s.buf s.idx.toNat bs) (hidx : s.idx.toNat + bs.length < 256)
    (hs : s.script = acks.flatMap (Answer.moves s.cfg.pollLimit.toNat) ++ rest) :
    ∃ u, writeLoop (bs.length + n) s = writeLoop n u ∧ SentBytes bs rest s u := by
  induction bs generalizing s acks with
  | nil =>
    obtain rfl := List.length_eq_zero_iff.1 hlen
    exact ⟨s, by rw [List.length_nil, Nat.zero_add], ⟨rfl, hf, hs, .of_trace rfl⟩, rfl, rfl⟩
  | cons b bs ih =>
    obtain ⟨a, acks, rfl⟩ := List.exists_cons_of_length_eq_add_one hlen
    obtain ⟨ha, hack⟩ := hacks a List.mem_cons_self
    obtain ⟨hread, hholds⟩ := Memory.holds_cons_iff.1 hbs
    rw [List.length_cons] at hidx
    rw [List.flatMap_cons, List.append_assoc] at hs
    obtain ⟨hstep, hserved⟩ := writeLoop_byte_acked (bs.length + n) hw hf hread ha hack hs
    generalize hu : (sendFetched (s.fetched b)).2.nextByte = u at hstep hserved
    have hnext : u.idx = s.idx + 1 := hu ▸ congrArg (· + 1) (sendFetched_busOnly (s.fetched b)).idx
    have hat : u.idx.toNat = s.idx.toNat + 1 := by rw [hnext]; bv_omega
    have hbuf : u.buf = s.buf := hu ▸ (sendFetched_busOnly (s.fetched b)).buf
    obtain ⟨t, ht, hsent, htidx, htbuf⟩ := ih (s := u) (acks := acks) (hserved.cfg ▸ hw) hserved.flag
      (Nat.succ_injective hlen) (by rw [hserved.cfg]; exact fun x hx => hacks x (List.mem_cons_of_mem a hx))
      (by rwa [hat, hbuf]) (by omega) (by rw [hserved.cfg]; exact hserved.script)
    rw [hserved.cfg, hat] at hsent
    exact ⟨t, by rw [List.length_cons, Nat.add_right_comm, hstep, ht], hserved.trans hsent,
      by rw [htidx, hat, List.length_cons]; omega, htbuf.trans hbuf⟩

/-- What WRBLK sends once its address is acknowledged. -/
def wrblkTransfers (dev : BitVec 7) (reg : Byte) (n : Nat) (bs : List Byte) : List PortEvent :=
  addressSends dev .write n ++ .ioWrite .data reg :: sentBytes 0 bs

theorem wrblkTransfers_concat (dev : BitVec 7) (reg : Byte) (n : Nat) (bs : List Byte) (b : Byte) :
    wrblkTransfers dev reg n (bs ++ [b]) = wrblkTransfers dev reg n bs ++ sentBytes bs.length [b] := by
  have hsplit (k : Nat) : sentBytes k (bs ++ [b]) = sentBytes k bs ++ sentBytes (k + bs.length) [b] := by
    induction bs generalizing k with
    | nil => rfl
    | cons x bs ih => simp [sentBytes, ih, Nat.add_assoc, Nat.add_comm 1]
  rw [wrblkTransfers, hsplit, Nat.zero_add, wrblkTransfers, List.append_assoc, List.cons_append]

/-- WRBLK, called in `v`, has sent the bytes `bs` after the register address, all acknowledged, and stands in `u` at its
next byte. -/
structure WrblkSent (nacks : List (Completion × Completion)) (last : List Answer) (bs : List Byte)
    (rest : List PeriphMove) (v u : State) : Prop where
  served : Served true rest (addressWords v.cfg nacks last ++ List.replicate (bs.length + 1) v.cfg.cw.xfer)
    (wrblkTransfers v.dev v.rega (addressCount nacks last) bs) v u
  idx : u.idx.toNat = bs.length
  buf : u.buf = v.buf

theorem runWrblk_acked (n : Nat) {v : State} {rest : List PeriphMove} {nacks : List (Completion × Completion)}
    {last acks : List Answer} {bs : List Byte} (hw : v.cfg.wf = true)
    (h : AddressAnswered v.cfg .write .acked nacks last) (hlen : acks.length = bs.length + 1)
    (hacks : ∀ a ∈ acks, a.fits v.cfg.pollLimit.toNat = true ∧ txAcked v.cfg a = true)
    (hbs : Memory.Holds v.buf 0 bs) (hn : v.len.toNat = bs.length + n)
    (hs : (periphTurn v).script =
      addressMoves v.cfg nacks last ++ (acks.flatMap (Answer.moves v.cfg.pollLimit.toNat) ++ rest)) :
    ∃ u, runWrblk v = writeLoop n u ∧ WrblkSent nacks last bs rest v u := by
  obtain ⟨a, acks, rfl⟩ := List.exists_cons_of_length_eq_add_one hlen
  obtain ⟨ha, hack⟩ := hacks a List.mem_cons_self
  rw [List.flatMap_cons, List.append_assoc] at hs
  obtain ⟨hcode, hbyte, hserved⟩ := wbRegByte_served hw h ha hs
  rw [txEndCode_of_acked hack] at hbyte
  rw [completes_of_txAcked hack] at hserved
  have hcfg : ((wbRegByte v).2.startLoop .wbData).cfg = v.cfg := hserved.cfg
  obtain ⟨u, hu, hsent, hidx, hbuf⟩ := writeLoop_acked n (s := (wbRegByte v).2.startLoop .wbData) (acks := acks)
    (bs := bs) (hcfg ▸ hw) hserved.flag (Nat.succ_injective hlen)
    (by rw [hcfg]; exact fun x hx => hacks x (List.mem_cons_of_mem a hx))
    (by rw [← wbRegByte_buf] at hbs; exact hbs) (by have := v.len.isLt; simp; omega)
    (by rw [hcfg]; exact hserved.script)
  have hall := hserved.trans (hsent.after_quiet rfl (.of_trace rfl))
  rw [hcfg, List.append_assoc, List.append_assoc] at hall
  refine ⟨u, ?_, hall, by rw [hidx]; exact Nat.zero_add _, hbuf.trans (wbRegByte_buf v)⟩
  rw [runWrblk_eq, if_neg (not_not.2 hcode), if_neg (not_not.2 hbyte), wbRegByte_len, hn, hu]

/-! ## WRBLK's ends under given answers (R220, R290 rows 8 to 15) -/

/-- What holds when the command, executed in `s`, ends in `t` with the status `code`, its port events being `evs`. -/
structure TransferEnds (i : Instr) (code : Byte) (ws : List Byte) (ms evs : List PortEvent) (s t : State) : Prop where
  exec : exec i s = .next t
  idle : t.ph = .idle
  result : t.result = code
  resultValid : t.resultValid = true
  trace : t.trace = evs ++ s.trace
  words : (ctrlWords evs).reverse = ws
  transfers : transfers evs = ms

section
variable {dev : BitVec 7} {reg len : Byte} {s : State} {nacks : List (Completion × Completion)} {last : List Answer}
  {rest : List PeriphMove}

/-- The final state is `finish` of the micro-sequence's. -/
theorem execWrblk_ends {on : Bool} {c : Byte} {ws : List Byte} {ms : List PortEvent} (hp : s.ph = .idle)
    (hc : (runWrblk (accepted (.wrblk dev reg len) s)).1 = .code c)
    (h : Served on rest ws ms (accepted (.wrblk dev reg len) s) (runWrblk (accepted (.wrblk dev reg len) s)).2) :
    ∃ evs, TransferEnds (.wrblk dev reg len) c ws ms evs s
      (finish c (runWrblk (accepted (.wrblk dev reg len) s)).2) := by
  have hexec : exec (.wrblk dev reg len) s = .next (finish c (runWrblk (accepted (.wrblk dev reg len) s)).2) := by
    rw [execWrblk_idle dev reg len s hp, wrblkOutcome, hc]
  obtain ⟨evs, htrace, -, hwords, hmoved⟩ :=
    (((accepted_accessed s _).quiet_trans h.accessed).trans_quiet (finish_accessed _ c)).command rfl hexec
  exact ⟨evs, hexec, rfl, rfl, rfl, htrace, hwords, hmoved⟩

theorem TransferEnds.sent_address {i : Instr} {code : Byte} {ws : List Byte} {evs : List PortEvent} {t : State}
    (h : TransferEnds i code ws (addressSends dev .write (addressCount nacks last)) evs s t) :
    bufReads evs = [] ∧ (dataBytes evs).reverse = addressBytes dev .write nacks last := by
  rw [← dataBytes_transfers, ← List.reverse_eq_nil_iff, ← bufReads_transfers, h.transfers]
  exact ⟨bufReads_addressSends dev .write _, dataBytes_addressSends_count dev .write nacks last⟩

theorem TransferEnds.sent_bytes {i : Instr} {code : Byte} {ws bs : List Byte} {evs : List PortEvent} {t : State}
    (h : TransferEnds i code ws (wrblkTransfers dev reg (addressCount nacks last) bs) evs s t) :
    (bufReads evs).reverse = (List.range bs.length).zip bs ∧
      (dataBytes evs).reverse = addressBytes dev .write nacks last ++ reg :: bs := by
  rw [← dataBytes_transfers, ← bufReads_transfers, h.transfers, wrblkTransfers, bufReads_append, dataBytes_append,
    bufReads_addressSends, dataBytes_addressSends_count, List.range_eq_range', ← bufReads_sentBytes]
  exact ⟨rfl, congrArg (addressBytes dev .write nacks last ++ reg :: ·) (dataBytes_sentBytes 0 bs)⟩

section
variable (hw : s.cfg.wf = true) (hp : s.ph = .idle)
include hw hp

/-- Rows 8 to 11: ADDRESS fails. -/
theorem execWrblk_address_failed {e : AddrEnd} (h : AddressAnswered s.cfg .write e nacks last) (he : e ≠ .acked)
    (hs : (periphTurn s).script = addressMoves s.cfg nacks last ++ rest) :
    ∃ t evs, TransferEnds (.wrblk dev reg len) (addrEndCode s.cfg.codes.wb e) (addressWords s.cfg nacks last)
      (addressSends dev .write (addressCount nacks last)) evs s t ∧ t.script = rest := by
  rw [← periphTurn_script_congr (s := s) (t := accepted (.wrblk dev reg len) s) rfl rfl rfl] at hs
  obtain ⟨hcode, haddr⟩ := wbAddress_served (v := accepted (.wrblk dev reg len) s) hw h hs
  have hrun := runWrblk_eq (accepted (.wrblk dev reg len) s)
  rw [if_pos (hcode ▸ addrEndCode_ne_zero (Config.codes_nonZero hw).wb he)] at hrun
  rw [← congrArg Prod.snd hrun] at haddr
  obtain ⟨evs, hends⟩ := execWrblk_ends hp (by rw [hrun, hcode]) haddr
  exact ⟨_, evs, hends, haddr.script⟩

/-- Rows 12 and 13: the register address fails. -/
theorem execWrblk_register_failed {bad : Answer} (h : AddressAnswered s.cfg .write .acked nacks last)
    (hbad : bad.fits s.cfg.pollLimit.toNat = true) (hnack : txAcked s.cfg bad = false)
    (hs : (periphTurn s).script = addressMoves s.cfg nacks last ++ (bad.moves s.cfg.pollLimit.toNat ++ rest)) :
    ∃ t evs, TransferEnds (.wrblk dev reg len) (txFailCode s.cfg.codes.wbReg bad)
      (addressWords s.cfg nacks last ++ [s.cfg.cw.xfer]) (wrblkTransfers dev reg (addressCount nacks last) []) evs s t ∧
      t.script = rest := by
  rw [← periphTurn_script_congr (s := s) (t := accepted (.wrblk dev reg len) s) rfl rfl rfl] at hs
  obtain ⟨hcode, hbyte, hserved⟩ := wbRegByte_served (v := accepted (.wrblk dev reg len) s) hw h hbad hs
  have hfail : (wbRegByte (accepted (.wrblk dev reg len) s)).1 = txFailCode s.cfg.codes.wbReg bad :=
    hbyte.trans (txEndCode_of_not_acked hnack)
  have hrun := runWrblk_eq (accepted (.wrblk dev reg len) s)
  rw [if_neg (not_not.2 hcode), if_pos (hfail ▸ txFailCode_ne_zero (Config.codes_nonZero hw).wbReg bad)] at hrun
  rw [← congrArg Prod.snd hrun] at hserved
  obtain ⟨evs, hends⟩ := execWrblk_ends hp (by rw [hrun, hfail]) hserved
  exact ⟨_, evs, hends, hserved.script⟩

/-- Rows 14 and 15: the data byte `b`, after the bytes `bs`, fails. -/
theorem execWrblk_data_failed {acks : List Answer} {bad : Answer} {bs : List Byte} {b : Byte}
    (h : AddressAnswered s.cfg .write .acked nacks last) (hlen : acks.length = bs.length + 1)
    (hacks : ∀ a ∈ acks, a.fits s.cfg.pollLimit.toNat = true ∧ txAcked s.cfg a = true)
    (hbad : bad.fits s.cfg.pollLimit.toNat = true) (hnack : txAcked s.cfg bad = false)
    (hbs : Memory.Holds s.buf 0 bs) (hb : Memory.read s.buf bs.length = some b) (hn : bs.length < len.toNat)
    (hs : (periphTurn s).script = addressMoves s.cfg nacks last ++
      (acks.flatMap (Answer.moves s.cfg.pollLimit.toNat) ++ (bad.moves s.cfg.pollLimit.toNat ++ rest))) :
    ∃ t evs, TransferEnds (.wrblk dev reg len) (txFailCode s.cfg.codes.wbData bad)
      (addressWords s.cfg nacks last ++ List.replicate (bs.length + 2) s.cfg.cw.xfer)
      (wrblkTransfers dev reg (addressCount nacks last) (bs ++ [b])) evs s t ∧ t.script = rest := by
  rw [← periphTurn_script_congr (s := s) (t := accepted (.wrblk dev reg len) s) rfl rfl rfl] at hs
  obtain ⟨n, hn⟩ := Nat.exists_eq_add_of_lt hn
  obtain ⟨u, hu, hserved, hidx, hbuf⟩ :=
    runWrblk_acked (v := accepted (.wrblk dev reg len) s) (n + 1) hw h hlen hacks hbs hn hs
  have hcfg : u.cfg = s.cfg := hserved.cfg
  obtain ⟨hcode, hlast⟩ := writeLoop_byte_failed (s := u) (b := b) n (hcfg ▸ hw) hserved.flag (by rwa [hidx, hbuf])
    (hcfg ▸ hbad) (hcfg ▸ hnack) (by rw [hcfg]; exact hserved.script)
  rw [← hu, hcfg] at hcode hlast
  have hall := hserved.trans hlast
  rw [accepted_cfg, hidx, List.append_assoc, ← List.replicate_succ', ← wrblkTransfers_concat] at hall
  obtain ⟨evs, hends⟩ := execWrblk_ends hp hcode hall
  exact ⟨_, evs, hends, hlast.script⟩

/-- Every byte is acknowledged. -/
theorem execWrblk_acked {acks : List Answer} {bs : List Byte}
    (h : AddressAnswered s.cfg .write .acked nacks last) (hlen : acks.length = bs.length + 1)
    (hacks : ∀ a ∈ acks, a.fits s.cfg.pollLimit.toNat = true ∧ txAcked s.cfg a = true)
    (hbs : Memory.Holds s.buf 0 bs) (hn : bs.length = len.toNat)
    (hs : (periphTurn s).script =
      addressMoves s.cfg nacks last ++ (acks.flatMap (Answer.moves s.cfg.pollLimit.toNat) ++ rest)) :
    ∃ u evs, (runWrblk (accepted (.wrblk dev reg len) s)) = (.code 0, u) ∧
      WrblkSent nacks last bs rest (accepted (.wrblk dev reg len) s) u ∧
      TransferEnds (.wrblk dev reg len) 0
        (addressWords s.cfg nacks last ++ List.replicate (bs.length + 1) s.cfg.cw.xfer)
        (wrblkTransfers dev reg (addressCount nacks last) bs) evs s (finish 0 u) := by
  rw [← periphTurn_script_congr (s := s) (t := accepted (.wrblk dev reg len) s) rfl rfl rfl] at hs
  obtain ⟨u, hu, hsent⟩ :=
    runWrblk_acked (v := accepted (.wrblk dev reg len) s) 0 hw h hlen hacks hbs hn.symm hs
  have hserved := hsent.served
  rw [show u = (runWrblk (accepted (.wrblk dev reg len) s)).2 by rw [hu]; rfl] at hserved
  obtain ⟨evs, hends⟩ := execWrblk_ends hp (congrArg Prod.fst hu) hserved
  rw [hu] at hends
  exact ⟨u, evs, hu, hsent, hends⟩

end

end

theorem Memory.holds_zero {m : Memory} {bs : List Byte} (h : ∀ i (h : i < bs.length), Memory.read m i = some bs[i]) :
    Memory.Holds m 0 bs := fun i hi => by rw [Nat.zero_add]; exact h i hi

/-- Settles O30: each clause is one of WRBLK's ends. -/
theorem wrblkEndCodes : Obligations.WrblkEndCodes := by
  intro dev reg len s e nacks last acks bad bytes rest hw hp hacks hbad hnack hbuf
  have hbytes := Memory.holds_zero hbuf
  refine ⟨fun h he hs => ?_, fun h hs => ?_, fun h hpos hlen hle hs => ?_, fun h hlen hn hs => ?_⟩
  · obtain ⟨t, evs, hends, hrest⟩ :=
      execWrblk_address_failed (dev := dev) (reg := reg) (len := len) hw hp (.of_addressAnswers h) he hs
    obtain ⟨hreads, hdata⟩ := hends.sent_address
    exact ⟨t, evs, hends.exec, hends.idle, hends.result, hrest, hends.trace, hreads, hdata, hends.words⟩
  · rw [List.append_assoc] at hs
    obtain ⟨t, evs, hends, hrest⟩ :=
      execWrblk_register_failed (dev := dev) (reg := reg) (len := len) hw hp (.of_addressAnswers h) hbad hnack hs
    obtain ⟨hreads, hdata⟩ := hends.sent_bytes
    exact ⟨t, evs, hends.exec, hends.idle, hends.result, hrest, hends.trace, List.reverse_eq_nil_iff.1 hreads, hdata,
      hends.words⟩
  · obtain ⟨bs, b, rfl⟩ := (List.eq_nil_or_concat' bytes).resolve_left (List.ne_nil_of_length_pos (hlen ▸ hpos))
    rw [List.flatMap_append, List.flatMap_singleton, List.append_assoc, List.append_assoc] at hs
    rw [List.length_append, List.length_singleton] at hlen hle
    have hb : Memory.read s.buf bs.length = some b := by simpa using hbuf bs.length (by simp)
    have hinit : Memory.Holds s.buf 0 bs := Memory.holds_zero fun i hi => by
      rw [hbuf i (by rw [List.length_append]; omega), List.getElem_append_left hi]
    obtain ⟨t, evs, hends, hrest⟩ := execWrblk_data_failed (dev := dev) (reg := reg) (len := len) hw hp
      (.of_addressAnswers h) hlen.symm hacks hbad hnack hinit hb hle hs
    obtain ⟨hreads, hdata⟩ := hends.sent_bytes
    exact ⟨t, evs, hends.exec, hends.idle, hends.result, hrest, hends.trace, hreads, hdata, hlen ▸ hends.words⟩
  · rw [List.append_assoc] at hs
    obtain ⟨u, evs, -, hsent, hends⟩ := execWrblk_acked (dev := dev) (reg := reg) hw hp (.of_addressAnswers h)
      (hlen.trans (hn ▸ rfl)) hacks hbytes hn hs
    obtain ⟨hreads, hdata⟩ := hends.sent_bytes
    exact ⟨_, evs, hends.exec, hends.idle, hends.result, hsent.served.script, hends.trace, hreads, hdata,
      by rw [hends.words, hlen, hn]⟩

/-! ## CTRL and IDX at the end of WRBLK -/

theorem doStatus_ctrlHolds {w : Byte} {s : State} (p : Phase) (h : ctrlHolds w s) : ctrlHolds w (doStatus p s) := by
  have hread {u : State} (hu : ctrlHolds w u) : ctrlHolds w (readStat u).2 := by
    unfold readStat
    split
    · exact hu
    · exact hu
  have henter : ctrlHolds w (enter p s) := by simpa [ctrlHolds] using h
  exact hread henter

/-- TXBYTE leaves CW_XFER in CTRL (R170). -/
theorem txByte_ctrlHolds (v : Byte) (k : TxCodes) (s : State) : ctrlHolds s.cfg.cw.xfer (txByte v k s).2 := by
  have hcfg : (doWriteData .tData v s).cfg = s.cfg := (doWriteData_busOnly ..).cfg
  have hwait : ctrlHolds s.cfg.cw.xfer (txWait v s).2 := by
    rw [txWait, hcfg]
    exact waitLoop_ctrlHolds .tWait _ (doTrigger_ctrlHolds .tTrig)
  cases he : (txWait v s).1 with
  | timeout => rw [txByte_timeout v k s he]; exact hwait
  | ok => rw [txByte_ok v k s he]; exact doStatus_ctrlHolds .tStat hwait

theorem writeLoop_ctrlHolds (n : Nat) {s : State} (h : ctrlHolds s.cfg.cw.xfer s) :
    ctrlHolds s.cfg.cw.xfer (writeLoop n s).2 := by
  induction n generalizing s with
  | zero => exact h
  | succ n ih =>
    cases hf : doFetch s with
    | none => rw [writeLoop_noFetch n hf]; exact h
    | some t =>
      have hcfg : t.cfg = s.cfg := (doFetch_busOnly hf).cfg
      have hcfg' : (sendFetched t).2.nextByte.cfg = s.cfg := (sendFetched_busOnly t).cfg.trans hcfg
      have hsend : ctrlHolds s.cfg.cw.xfer (sendFetched t).2 := hcfg ▸ txByte_ctrlHolds t.txb t.cfg.codes.wbData t
      rw [writeLoop_fetch n hf]
      split
      · exact hsend
      · rw [← hcfg'] at hsend ⊢
        exact ih hsend

/-- Once the register address has been sent CTRL holds CW_XFER to the end. -/
theorem runWrblk_ctrlHolds {v : State} (h : (wbAddress v).1 = 0) : ctrlHolds v.cfg.cw.xfer (runWrblk v).2 := by
  have hbyte : ctrlHolds v.cfg.cw.xfer (wbRegByte v).2 := by
    rw [← wbAddress_cfg]
    exact txByte_ctrlHolds _ _ ((wbAddress v).2.inSeg .wbReg)
  rw [runWrblk_eq, if_neg (not_not.2 h)]
  split
  · exact hbyte
  · rw [← wbRegByte_cfg] at hbyte ⊢
    exact writeLoop_ctrlHolds _ (s := (wbRegByte v).2.startLoop .wbData) hbyte

theorem addressAnswered_first {c : Config} {dir : Dir} {a : Completion × Completion}
    (hstart : a.1.fits c.pollLimit.toNat = true) (hgood : isStartStatus c.status (a.1.stat &&& c.statusMask) = true)
    (haddr : a.2.fits c.pollLimit.toNat = true) (hack : a.2.stat &&& c.statusMask = ackOf c.status dir) :
    AddressAnswered c dir .acked [] [.done a.1, .done a.2] :=
  ⟨Nat.zero_le _, nofun, .acked hstart haddr hgood hack⟩

theorem flatMap_moves_done (limit : Nat) (cs : List Completion) :
    (cs.map Answer.done).flatMap (Answer.moves limit) = cs.flatMap Completion.moves := List.flatMap_map ..

/-- PERIPH's moves in an addressing that is acknowledged at once. -/
theorem addressMoves_first (c : Config) (a : Completion × Completion) :
    addressMoves c [] [.done a.1, .done a.2] = attemptMoves a := by simp [addressMoves, attemptMoves, Answer.moves]

/-- Settles O29: the first attempt of ADDRESS is acknowledged, and so is every byte. -/
theorem wrblkAcked : Obligations.WrblkAcked := by
  intro dev reg len s a acks bytes rest hw hp hstart hgood haddr hack hacks hall hlen hbuf hs
  have hanswered : AddressAnswered s.cfg .write .acked [] [.done a.1, .done a.2] :=
    addressAnswered_first hstart hgood haddr hack
  rw [← flatMap_moves_done s.cfg.pollLimit.toNat, ← addressMoves_first s.cfg, List.append_assoc] at hs
  obtain ⟨u, evs, hrun, hsent, hends⟩ := execWrblk_acked (dev := dev) (reg := reg) (bs := bytes) hw hp hanswered
    (by rw [List.length_map, hacks, hlen])
    (fun x hx => by
      obtain ⟨c, hc, rfl⟩ := List.mem_map.1 hx
      obtain ⟨hfits, hstat⟩ := hall c hc
      exact ⟨hfits, beq_iff_eq.2 hstat⟩)
    (Memory.holds_zero hbuf) hlen hs
  have hctrl : ctrlHolds s.cfg.cw.xfer u := by
    obtain ⟨hcode, -⟩ := wbAddress_served (v := accepted (.wrblk dev reg len) s) hw hanswered
      (by rwa [← periphTurn_script_congr (s := s) (t := accepted (.wrblk dev reg len) s) rfl rfl rfl] at hs)
    have := runWrblk_ctrlHolds hcode
    rwa [hrun] at this
  obtain ⟨hreads, hdata⟩ := hends.sent_bytes
  rw [hlen] at hreads
  refine ⟨_, evs, hends.exec, hends.idle, hends.result, hends.resultValid, hsent.served.flag, hctrl,
    BitVec.eq_of_toNat_eq (hsent.idx.trans hlen), hsent.served.script, fun i => congrArg (Memory.read · i) hsent.buf,
    hends.trace, hdata, ?_, hreads⟩
  rw [hends.words, hlen]
  rfl

/-! ## WRBLK whatever PERIPH does (R220, R222) -/

theorem sendFetched_code (s : State) : (sendFetched s).1 = 0 ∨ (sendFetched s).1 ∈ s.cfg.codes.wbData.toList :=
  txByte_code ..

theorem writeLoop_code (n : Nat) {s : State} {c : Byte} (h : (writeLoop n s).1 = .code c) :
    c = 0 ∨ c ∈ s.cfg.codes.wbData.toList := by
  induction n generalizing s with
  | zero => cases h; exact .inl rfl
  | succ n ih =>
    cases hf : doFetch s with
    | none => rw [writeLoop_noFetch n hf] at h; cases h
    | some t =>
      have hcfg : t.cfg = s.cfg := (doFetch_busOnly hf).cfg
      have hcfg' : (sendFetched t).2.nextByte.cfg = s.cfg := (sendFetched_busOnly t).cfg.trans hcfg
      rw [writeLoop_fetch n hf] at h
      split at h
      · cases h
        exact hcfg ▸ sendFetched_code t
      · exact hcfg' ▸ ih h

/-- WRBLK's status is 0 or one of its eight codes. -/
theorem runWrblk_code {v : State} {c : Byte} (h : (runWrblk v).1 = .code c) :
    c = 0 ∨ c ∈ v.cfg.codes.wb.toList ++ v.cfg.codes.wbReg.toList ++ v.cfg.codes.wbData.toList := by
  rw [List.mem_append, List.mem_append]
  rw [runWrblk_eq] at h
  split at h
  · cases h
    exact (address_code v.dev .write v.cfg.codes.wb (v.inSeg .wbAddr)).imp_right (.inl ∘ .inl)
  split at h
  · cases h
    have hcode := txByte_code (wbAddress v).2.rega (wbAddress v).2.cfg.codes.wbReg ((wbAddress v).2.inSeg .wbReg)
    rw [wbAddress_cfg] at hcode
    rw [wbRegByte, wbAddress_cfg]
    exact hcode.imp_right (.inl ∘ .inr)
  · have hcode := writeLoop_code _ h
    rw [show ((wbRegByte v).2.startLoop .wbData).cfg = v.cfg from wbRegByte_cfg v] at hcode
    exact hcode.imp_right .inr

theorem doFetch_ctrlWordsIn {ws : List Byte} {s t : State} (h : doFetch s = some t) : CtrlWordsIn ws s t := by
  cases hv : Memory.read s.buf s.idx.toNat with
  | none => rw [doFetch_none s hv] at h; cases h
  | some v =>
    rw [doFetch_some s v hv] at h
    cases h
    exact .of_event (e := .bufRead s.idx.toNat v) (congrArg _ (enter_trace .tFetch s)) (List.nil_subset ws)

theorem writeLoop_ctrlWordsIn {ws : List Byte} (n : Nat) {s : State} (hxfer : s.cfg.cw.xfer ∈ ws) :
    CtrlWordsIn ws s (writeLoop n s).2 := by
  induction n generalizing s with
  | zero => exact .of_trace rfl
  | succ n ih =>
    cases hf : doFetch s with
    | none => rw [writeLoop_noFetch n hf]; exact .of_trace rfl
    | some t =>
      have hcfg : t.cfg = s.cfg := (doFetch_busOnly hf).cfg
      have hcfg' : (sendFetched t).2.nextByte.cfg = s.cfg := (sendFetched_busOnly t).cfg.trans hcfg
      have hsend : CtrlWordsIn ws s (sendFetched t).2 := (doFetch_ctrlWordsIn hf).trans
        ((txByte_accessed t t.txb t.cfg.codes.wbData).ctrlWordsIn (by simpa [hcfg] using hxfer))
      have hnext : CtrlWordsIn ws (sendFetched t).2 (sendFetched t).2.nextByte := .of_trace rfl
      rw [writeLoop_fetch n hf]
      split
      · exact hsend
      · exact hsend.trans (hnext.trans (ih (hcfg' ▸ hxfer)))

/-- WRBLK writes CW_START and CW_XFER only, so no stop (R222). -/
theorem runWrblk_ctrlWordsIn {ws : List Byte} {v : State} (hstart : v.cfg.cw.start ∈ ws) (hxfer : v.cfg.cw.xfer ∈ ws) :
    CtrlWordsIn ws v (runWrblk v).2 := by
  have haddr : CtrlWordsIn ws v (wbAddress v).2 :=
    (CtrlWordsIn.of_trace (t := v.inSeg .wbAddr) rfl).trans (address_ctrlWordsIn _ _ _ hstart hxfer)
  have hbyte : CtrlWordsIn ws v (wbRegByte v).2 :=
    (haddr.trans (CtrlWordsIn.of_trace (t := (wbAddress v).2.inSeg .wbReg) rfl)).trans
      ((txByte_accessed ((wbAddress v).2.inSeg .wbReg) _ _).ctrlWordsIn
        (by simpa [State.inSeg_cfg, wbAddress_cfg] using hxfer))
  have hloop : CtrlWordsIn ws (wbRegByte v).2 ((wbRegByte v).2.startLoop .wbData) := .of_trace rfl
  rw [runWrblk_eq]
  split
  · exact haddr
  split
  · exact hbyte
  · rw [← wbRegByte_cfg] at hxfer
    exact hbyte.trans (hloop.trans (writeLoop_ctrlWordsIn _ (s := (wbRegByte v).2.startLoop .wbData) hxfer))

theorem bufWrites_sentBytes (k : Nat) (bs : List Byte) : bufWrites (sentBytes k bs) = [] := by
  induction bs generalizing k with
  | nil => rfl
  | cons b bs ih => exact ih (k + 1)

/-- WRBLK writes nothing to BUF. -/
theorem runWrblk_bufWrites {v : State} {c : Byte} (h : (runWrblk v).1 = .code c) :
    ∃ ms, bufWrites ms = [] ∧ Moved v (runWrblk v).2 ms := by
  obtain ⟨n, ⟨hmoved, -⟩ | ⟨bs, -, -, -, hmoved⟩⟩ := runWrblk_moved v h
  · exact ⟨_, bufWrites_addressSends v.dev .write n, hmoved⟩
  · refine ⟨_, ?_, hmoved⟩
    rw [bufWrites_append, bufWrites_addressSends]
    exact bufWrites_sentBytes 0 bs

/-- Where BUF holds the bytes to send WRBLK ends with a code (R52). -/
theorem runWrblk_of_bufReady {v : State} (h : bufReady v v.len.toNat) : ∃ c, (runWrblk v).1 = .code c := by
  cases hr : (runWrblk v).1 with
  | code c => exact ⟨c, rfl⟩
  | noValue k =>
    obtain ⟨hk, hread⟩ := runWrblk_noValue k v hr
    have := h k hk
    rw [hread] at this
    cases this

/-- Settles O27: the words, the transfers and the frame of WRBLK's micro-sequence, which ends with a code. -/
theorem wrblkCompletes : Obligations.WrblkCompletes := by
  intro dev reg len s hp hready
  obtain ⟨c, hc⟩ := runWrblk_of_bufReady (v := accepted (.wrblk dev reg len) s) hready
  have hexec : exec (.wrblk dev reg len) s = .next (finish c (runWrblk (accepted (.wrblk dev reg len) s)).2) := by
    rw [execWrblk_idle dev reg len s hp, wrblkOutcome, hc]
  obtain ⟨evs, -, htrace, hvalid⟩ := (exec_endsWithStatus rfl hexec).events
  rw [← List.cons_append] at htrace
  have hwords := (((accepted_accessed s (.wrblk dev reg len)).ctrlWordsIn (List.nil_subset _)).trans
    ((runWrblk_ctrlWordsIn (ws := [s.cfg.cw.start, s.cfg.cw.xfer]) (by simp) (by simp)).trans
      ((finish_accessed _ c).ctrlWordsIn (List.nil_subset _)))).events htrace
  obtain ⟨ms, hms, hmoved⟩ := runWrblk_bufWrites hc
  have htransfers := ((accepted_moved _ s).quiet_trans (hmoved.trans_quiet (finish_moved c _))).events htrace
  have hframe := runWrblk_busOnly s (accepted (.wrblk dev reg len) s)
  refine ⟨_, _, hexec, rfl, hvalid, runWrblk_code (v := accepted (.wrblk dev reg len) s) hc, htrace, rfl,
    fun w hw => by simpa using hwords hw, ?_,
    ⟨hframe.div, hframe.pu, hframe.cfg, hframe.host⟩, fun i => congrArg (Memory.read · i) hframe.buf⟩
  rwa [← htransfers, bufWrites_transfers, List.reverse_eq_nil_iff] at hms

end Sys2Proof.Machine
end

-- ==== WRBLK as BEGIN and SENDs ====
section
/-! PROOFS. WRBLK makes the accesses of the IO space that BEGIN and one SEND for each byte make (R223), obligation O31.
`SameIo` relates two states that the accesses on the bus cannot tell apart and in which the same IO accesses have been
made; every access, ADDRESS and TXBYTE keep it, and the two runs are then compared command by command. The fetch of a
byte from BUF, which the SENDs do not make, gives PERIPH one turn more, but FLAG is 1 there, so it is not enabled. -/

namespace Sys2Proof.Machine

/-! ## States alike to the accesses on the bus -/

/-- `d` with all that the accesses on the bus look at taken from `s`. -/
def State.withBusOf (d s : State) : State :=
  { d with
    en := s.en, sta := s.sta, sto := s.sto, ea := s.ea, flag := s.flag, stat := s.stat, statWritten := s.statWritten
    data := s.data, poll := s.poll, st := s.st, cfg := s.cfg, script := s.script, clock := s.clock, draws := s.draws }

/-- The accesses on the bus do not tell `u` from `s`, and so far the same accesses of the IO space have been made. -/
def SameIo (s u : State) : Prop := ∃ d, u = State.withBusOf d s ∧ ioEvents d.trace = ioEvents s.trace

section
variable {s u : State}

theorem SameIo.refl (s : State) : SameIo s s := ⟨s, rfl, rfl⟩

theorem SameIo.cfg (h : SameIo s u) : u.cfg = s.cfg := by obtain ⟨d, rfl, -⟩ := h; rfl
theorem SameIo.flag (h : SameIo s u) : u.flag = s.flag := by obtain ⟨d, rfl, -⟩ := h; rfl
theorem SameIo.st (h : SameIo s u) : u.st = s.st := by obtain ⟨d, rfl, -⟩ := h; rfl
theorem SameIo.poll (h : SameIo s u) : u.poll = s.poll := by obtain ⟨d, rfl, -⟩ := h; rfl
theorem SameIo.draws (h : SameIo s u) : u.draws = s.draws := by obtain ⟨d, rfl, -⟩ := h; rfl
theorem SameIo.stat (h : SameIo s u) : u.stat = s.stat := by obtain ⟨d, rfl, -⟩ := h; rfl
theorem SameIo.statWritten (h : SameIo s u) : u.statWritten = s.statWritten := by obtain ⟨d, rfl, -⟩ := h; rfl
theorem SameIo.trace (h : SameIo s u) : ioEvents u.trace = ioEvents s.trace := by obtain ⟨d, rfl, hio⟩ := h; exact hio

/-- Changes off the bus keep the relation. -/
theorem SameIo.off_bus {s' u' : State} (h : SameIo s u) (hs : s' = s'.withBusOf s) (hu : u' = u'.withBusOf u)
    (ts : ioEvents s'.trace = ioEvents s.trace) (tu : ioEvents u'.trace = ioEvents u.trace) : SameIo s' u' := by
  refine ⟨u', ?_, tu.trans (h.trace.trans ts.symm)⟩
  obtain ⟨d, rfl, -⟩ := h
  rw [hs]
  exact hu

/-! ## PERIPH's turn and the accesses -/

theorem periphMove_sameIo (h : SameIo s u) (m : PeriphMove) : SameIo (periphMove m s) (periphMove m u) := by
  obtain ⟨d, rfl, hio⟩ := h
  cases m with
  | stay => exact ⟨d, rfl, hio⟩
  | complete x y => exact ⟨d, rfl, hio⟩

theorem SameIo.withMoves (h : SameIo s u) (moves : List PeriphMove) (n : Nat) :
    SameIo (s.withMoves moves n) (u.withMoves moves n) := by
  obtain ⟨d, rfl, hio⟩ := h
  exact ⟨d, rfl, hio⟩

/-- PERIPH takes the same turn in both states (R79, log 7). -/
theorem periphTurn_sameIo (h : SameIo s u) : SameIo (periphTurn s) (periphTurn u) := by
  have hmove (m : PeriphMove) (moves : List PeriphMove) (n : Nat) := periphMove_sameIo (h.withMoves moves n) m
  obtain ⟨d, rfl, hio⟩ := h
  have hen : periphEnabled (d.withBusOf s) = periphEnabled s := rfl
  have hscript : (d.withBusOf s).script = s.script := rfl
  unfold periphTurn
  rw [hen, hscript]
  cases periphEnabled s with
  | false => exact ⟨d, rfl, hio⟩
  | true =>
    cases s.script with
    | nil => exact hmove (Config.freePeriphMove s.clock) [] (s.clock + 1)
    | cons m rest => exact hmove m rest s.clock

theorem enter_sameIo (p : Phase) (h : SameIo s u) : SameIo (enter p s) (enter p u) := by
  rw [enter_eq, enter_eq]
  exact (periphTurn_sameIo h).off_bus rfl rfl rfl rfl

theorem doTrigger_sameIo (p : Phase) (w : Byte) (h : SameIo s u) : SameIo (doTrigger p w s) (doTrigger p w u) := by
  obtain ⟨d, hd, hio⟩ := enter_sameIo p h
  exact ⟨logEvent (.ioWrite .ctrl w) d, by rw [doTrigger, hd]; rfl, congrArg (PortEvent.ioWrite .ctrl w :: ·) hio⟩

theorem doWriteData_sameIo (p : Phase) (v : Byte) (h : SameIo s u) :
    SameIo (doWriteData p v s) (doWriteData p v u) := by
  obtain ⟨d, hd, hio⟩ := enter_sameIo p h
  exact ⟨logEvent (.ioWrite .data v) d, by rw [doWriteData, hd]; rfl, congrArg (PortEvent.ioWrite .data v :: ·) hio⟩

theorem doPoll_sameIo (p : Phase) (h : SameIo s u) :
    (doPoll p u).1 = (doPoll p s).1 ∧ SameIo (doPoll p s).2 (doPoll p u).2 := by
  have hin := enter_sameIo p h
  rw [doPoll_eq, doPoll_eq, h.draws, h.poll, hin.flag]
  obtain ⟨d, hd, hio⟩ := hin
  rw [hd]
  exact ⟨rfl, logEvent (.poll (enter p s).flag) d, rfl, congrArg (PortEvent.poll (enter p s).flag :: ·) hio⟩

theorem readStat_sameIo (h : SameIo s u) : (readStat u).1 = (readStat s).1 ∧ SameIo (readStat s).2 (readStat u).2 := by
  cases hw : s.statWritten with
  | true =>
    rw [readStat_written s hw, readStat_written u (h.statWritten.trans hw), h.stat]
    obtain ⟨d, rfl, hio⟩ := h
    exact ⟨rfl, logEvent (.ioRead .stat s.stat) d, rfl, congrArg (PortEvent.ioRead .stat s.stat :: ·) hio⟩
  | false =>
    rw [readStat_unwritten s hw, readStat_unwritten u (h.statWritten.trans hw), h.draws]
    obtain ⟨d, rfl, hio⟩ := h
    exact ⟨rfl, logEvent (.ioRead .stat (Config.freeByte s.draws)) d, rfl,
      congrArg (PortEvent.ioRead .stat (Config.freeByte s.draws) :: ·) hio⟩

theorem doStatus_sameIo (p : Phase) (h : SameIo s u) : SameIo (doStatus p s) (doStatus p u) := by
  obtain ⟨hbyte, hread⟩ := readStat_sameIo (enter_sameIo p h)
  have hst : maskStatus (readStat (enter p u)).2.cfg (readStat (enter p u)).1 =
      maskStatus (readStat (enter p s)).2.cfg (readStat (enter p s)).1 := by rw [hbyte, hread.cfg]
  simp only [doStatus, hst]
  obtain ⟨d, hd, hio⟩ := hread
  exact ⟨d, by rw [hd]; rfl, hio⟩

/-! ## WAIT, TXBYTE and ADDRESS -/

theorem waitLoop_sameIo (p : Phase) (n : Nat) (h : SameIo s u) :
    (waitLoop p n u).1 = (waitLoop p n s).1 ∧ SameIo (waitLoop p n s).2 (waitLoop p n u).2 := by
  induction n generalizing s u with
  | zero => exact ⟨rfl, h⟩
  | succ n ih =>
    obtain ⟨hint, hpoll⟩ := doPoll_sameIo p h
    simp only [waitLoop, hint]
    split
    · exact ⟨rfl, hpoll⟩
    · exact ih hpoll

theorem triggerWait_sameIo (p q : Phase) (w : Byte) (h : SameIo s u) :
    (wait p (doTrigger q w u)).1 = (wait p (doTrigger q w s)).1 ∧
      SameIo (wait p (doTrigger q w s)).2 (wait p (doTrigger q w u)).2 := by
  have htrigger := doTrigger_sameIo q w h
  rw [wait, wait, htrigger.poll]
  exact waitLoop_sameIo p _ htrigger

/-- Two micro-sequences answer 0 both or neither, in states alike to the bus. -/
structure SameEnd (r q : Byte × State) : Prop where
  zero : q.1 = 0 ↔ r.1 = 0
  io : SameIo r.2 q.2

/-- TXBYTE, with codes of two commands. -/
theorem txByte_sameEnd (v : Byte) {k l : TxCodes} (hk : ∀ x ∈ k.toList, x ≠ 0) (hl : ∀ x ∈ l.toList, x ≠ 0)
    (h : SameIo s u) : SameEnd (txByte v k s) (txByte v l u) := by
  simp only [TxCodes.toList, List.mem_cons, List.not_mem_nil, or_false, forall_eq_or_imp, forall_eq] at hk hl
  obtain ⟨hktime, hkstat⟩ := hk
  obtain ⟨hltime, hlstat⟩ := hl
  have hdata := doWriteData_sameIo .tData v h
  obtain ⟨hend, hio⟩ : (txWait v u).1 = (txWait v s).1 ∧ SameIo (txWait v s).2 (txWait v u).2 := by
    rw [txWait, txWait, hdata.cfg]
    exact triggerWait_sameIo .tWait .tTrig _ hdata
  cases he : (txWait v s).1 with
  | timeout =>
    rw [txByte_timeout v k s he, txByte_timeout v l u (hend.trans he)]
    exact ⟨iff_of_false hltime hktime, hio⟩
  | ok =>
    have hstat := doStatus_sameIo .tStat hio
    rw [txByte_ok v k s he, txByte_ok v l u (hend.trans he)]
    refine ⟨?_, hstat⟩
    simp only [txVerdict, hstat.st, hstat.cfg]
    split
    · exact iff_of_false hlstat hkstat
    · exact Iff.rfl

/-- One attempt of ADDRESS fails in both runs or in neither, whatever the codes. -/
theorem addressAttempt_sameIo (dev : BitVec 7) (dir : Dir) (c k : AddrCodes) (h : SameIo s u) :
    SameIo (addressAttempt dev dir c s).2 (addressAttempt dev dir k u).2 ∧
      (((addressAttempt dev dir c s).1 = none ∧ (addressAttempt dev dir k u).1 = none) ∨
        ∃ x ∈ c.toList, ∃ y ∈ k.toList,
          (addressAttempt dev dir c s).1 = some x ∧ (addressAttempt dev dir k u).1 = some y) := by
  obtain ⟨hstart, hio⟩ : (startWait u).1 = (startWait s).1 ∧ SameIo (startWait s).2 (startWait u).2 := by
    rw [startWait, startWait, h.cfg]
    exact triggerWait_sameIo .aStartWait .aStart _ h
  cases he : (startWait s).1 with
  | timeout =>
    rw [addressAttempt_startTimeout _ _ c s he, addressAttempt_startTimeout _ _ k u (hstart.trans he)]
    exact ⟨hio, .inr ⟨_, by simp [AddrCodes.toList], _, by simp [AddrCodes.toList], rfl, rfl⟩⟩
  | ok =>
    have hstat : SameIo (startStat s) (startStat u) := doStatus_sameIo .aStartStat hio
    have hcheck : isStartStatus (startStat u).cfg.status (startStat u).st =
        isStartStatus (startStat s).cfg.status (startStat s).st := by rw [hstat.st, hstat.cfg]
    cases hs : isStartStatus (startStat s).cfg.status (startStat s).st with
    | false =>
      rw [addressAttempt_startStatus _ _ c s he hs,
        addressAttempt_startStatus _ _ k u (hstart.trans he) (hcheck.trans hs)]
      exact ⟨hstat, .inr ⟨_, by simp [AddrCodes.toList], _, by simp [AddrCodes.toList], rfl, rfl⟩⟩
    | true =>
      have hdata := doWriteData_sameIo .aAddrData (addrByte dev dir) hstat
      obtain ⟨haddr, hio2⟩ : (addrWait dev dir (startStat u)).1 = (addrWait dev dir (startStat s)).1 ∧
          SameIo (addrWait dev dir (startStat s)).2 (addrWait dev dir (startStat u)).2 := by
        rw [addrWait, addrWait, hdata.cfg]
        exact triggerWait_sameIo .aAddrWait .aAddrTrig _ hdata
      cases ha : (addrWait dev dir (startStat s)).1 with
      | timeout =>
        rw [addressAttempt_addrTimeout _ _ c s he hs ha,
          addressAttempt_addrTimeout _ _ k u (hstart.trans he) (hcheck.trans hs) (haddr.trans ha)]
        exact ⟨hio2, .inr ⟨_, by simp [AddrCodes.toList], _, by simp [AddrCodes.toList], rfl, rfl⟩⟩
      | ok =>
        rw [addressAttempt_addrOk _ _ c s he hs ha,
          addressAttempt_addrOk _ _ k u (hstart.trans he) (hcheck.trans hs) (haddr.trans ha)]
        exact ⟨doStatus_sameIo .aAddrStat hio2, .inl ⟨rfl, rfl⟩⟩

/-- ADDRESS, with codes of two commands. -/
theorem addressLoop_sameEnd (dev : BitVec 7) (dir : Dir) {c k : AddrCodes} (hc : ∀ x ∈ c.toList, x ≠ 0)
    (hk : ∀ x ∈ k.toList, x ≠ 0) (n : Nat) (h : SameIo s u) :
    SameEnd (addressLoop dev dir c n s) (addressLoop dev dir k n u) := by
  induction n using Nat.strong_induction_on generalizing s u with | _ n ih
  obtain ⟨hio, ⟨hnone, hnone'⟩ | ⟨x, hx, y, hy, hsome, hsome'⟩⟩ := addressAttempt_sameIo dev dir c k h
  · by_cases hn : (addressAttempt dev dir c s).2.st = nackOf (addressAttempt dev dir c s).2.cfg.status dir ∧ n ≠ 0
    · obtain ⟨hnack, hpos⟩ := hn
      obtain ⟨m, rfl⟩ := Nat.exists_eq_succ_of_ne_zero hpos
      rw [addressLoop_retry _ _ c s m hnone hnack,
        addressLoop_retry _ _ k u m hnone' (by rw [hio.st, hio.cfg]; exact hnack)]
      exact ih m (Nat.lt_succ_self m) (hio.off_bus rfl rfl rfl rfl)
    · rw [addressLoop_verdict _ _ c s n hnone hn,
        addressLoop_verdict _ _ k u n hnone' (by rw [hio.st, hio.cfg]; exact hn)]
      refine ⟨?_, hio⟩
      simp only [hio.st, hio.cfg]
      split
      · exact iff_of_false (hk k.addrStatus (by simp [AddrCodes.toList])) (hc c.addrStatus (by simp [AddrCodes.toList]))
      · exact Iff.rfl
  · rw [addressLoop_failed _ _ c s n hsome, addressLoop_failed _ _ k u n hsome']
    exact ⟨iff_of_false (hk y hy) (hc x hx), hio⟩

theorem address_sameEnd (dev : BitVec 7) (dir : Dir) {c k : AddrCodes} (hc : ∀ x ∈ c.toList, x ≠ 0)
    (hk : ∀ x ∈ k.toList, x ≠ 0) (h : SameIo s u) : SameEnd (address dev dir c s) (address dev dir k u) := by
  rw [address_eq, address_eq, h.cfg]
  exact addressLoop_sameEnd dev dir hc hk _ (h.off_bus rfl rfl rfl rfl)

end

/-- Where TXBYTE answers 0 its byte has been acknowledged, so FLAG is 1. -/
theorem txByte_flag_of_zero {v : Byte} {k : TxCodes} {s : State} (hw : s.cfg.wf = true) (hk : ∀ x ∈ k.toList, x ≠ 0)
    (h : (txByte v k s).1 = 0) : (txByte v k s).2.flag = true := by
  obtain ⟨a, rest, -, hcode, hreach⟩ := txByte_some_answer v k (Config.triggersActive_of_wf hw)
  rw [hreach.flag]
  cases ha : txAcked s.cfg a with
  | true => exact completes_of_txAcked ha
  | false =>
    rw [txEndCode_of_not_acked ha, h] at hcode
    exact absurd hcode.symm (txFailCode_ne_zero hk a)

/-! ## The data loop against the SENDs (R223) -/

/-- The state after SEND of `b` on the idle block `u`. -/
def State.sent (b : Byte) (u : State) : State := runSend (accepted (.send b) u)

theorem sendEach_cons {u : State} (b : Byte) (bs : List Byte) (h : u.ph = .idle) :
    sendEach (b :: bs) u = if (u.sent b).result ≠ 0 then .next (u.sent b) else sendEach bs (u.sent b) := by
  rw [sendEach, execSend_idle b u h, thenDo_next]
  rfl

theorem exec_extends_trace {i : Instr} {s t : State} (hi : returnsStatus i = true) (h : exec i s = .next t) :
    ∃ es, t.trace = es ++ s.trace := by
  obtain ⟨evs, -, htrace, -⟩ := (exec_endsWithStatus hi h).events
  exact ⟨_ :: evs, htrace⟩

/-- TXBYTE in one run, SEND of the same byte in the other. -/
theorem sent_sameIo {b : Byte} {k : TxCodes} {s u : State} (hw : s.cfg.wf = true) (hk : ∀ x ∈ k.toList, x ≠ 0)
    (h : SameIo s u) :
    ((u.sent b).result = 0 ↔ (txByte b k s).1 = 0) ∧ SameIo (txByte b k s).2 (u.sent b) := by
  have hsb : ∀ x ∈ u.cfg.codes.sb.toList, x ≠ 0 := h.cfg ▸ (Config.codes_nonZero hw).sb
  have hstart : SameIo s (u.sendStart b) := h.off_bus rfl rfl rfl rfl
  obtain ⟨hzero, hio⟩ := txByte_sameEnd b hk hsb hstart
  exact ⟨hzero, hio.off_bus rfl rfl rfl rfl⟩

/-- WRBLK's micro-sequence has come to `r`, and the commands that stand for it have led from `u` to `w`. -/
structure SendsAlike (r : BlockEnd × State) (u w : State) : Prop where
  code : ∃ c, r.1 = .code c ∧ (c = 0 ↔ w.result = 0)
  io : SameIo r.2 w
  trace : ∃ es, w.trace = es ++ u.trace

theorem SendsAlike.after {r : BlockEnd × State} {u v w : State} (h : SendsAlike r v w)
    (ht : ∃ es, v.trace = es ++ u.trace) : SendsAlike r u w := by
  obtain ⟨fs, hfs⟩ := ht
  obtain ⟨es, hes⟩ := h.trace
  exact ⟨h.code, h.io, es ++ fs, by rw [hes, hfs, List.append_assoc]⟩

/-- The data loop and the SENDs of its bytes. -/
theorem writeLoop_sendsAlike {bs : List Byte} {s u : State} (hw : s.cfg.wf = true) (hf : s.flag = true)
    (hbs : Memory.Holds s.buf s.idx.toNat bs) (hidx : s.idx.toNat + bs.length < 256) (h : SameIo s u)
    (hp : u.ph = .idle) (hres : u.result = 0) :
    ∃ w, sendEach bs u = .next w ∧ SendsAlike (writeLoop bs.length s) u w := by
  induction bs generalizing s u with
  | nil => exact ⟨u, rfl, ⟨0, rfl, iff_of_true rfl hres⟩, h, [], rfl⟩
  | cons b bs ih =>
    obtain ⟨hread, hholds⟩ := Memory.holds_cons_iff.1 hbs
    have hfetch : SameIo (s.fetched b) u := h.off_bus rfl rfl rfl rfl
    have hcodes : ∀ x ∈ s.cfg.codes.wbData.toList, x ≠ 0 := (Config.codes_nonZero hw).wbData
    obtain ⟨hzero, hio⟩ : ((u.sent b).result = 0 ↔ (sendFetched (s.fetched b)).1 = 0) ∧
      SameIo (sendFetched (s.fetched b)).2 (u.sent b) := sent_sameIo (s := s.fetched b) hw hcodes hfetch
    have htrace := exec_extends_trace rfl (execSend_idle b u hp)
    rw [sendEach_cons b bs hp, List.length_cons, writeLoop_fetch _ (doFetch_of_flag hf hread)]
    by_cases hc : (sendFetched (s.fetched b)).1 = 0
    · have hflag : (sendFetched (s.fetched b)).2.nextByte.flag = true :=
        txByte_flag_of_zero (s := s.fetched b) hw hcodes hc
      have hb := sendFetched_busOnly (s.fetched b)
      have hat : (sendFetched (s.fetched b)).2.nextByte.idx.toNat = s.idx.toNat + 1 := by
        have hkeep : (sendFetched (s.fetched b)).2.idx = s.idx := hb.idx
        rw [List.length_cons] at hidx
        rw [State.nextByte, hkeep]
        bv_omega
      have hcfg : (sendFetched (s.fetched b)).2.nextByte.cfg = s.cfg := hb.cfg
      have hbuf : (sendFetched (s.fetched b)).2.nextByte.buf = s.buf := hb.buf
      rw [if_neg (not_not.2 (hzero.2 hc)), if_neg (not_not.2 hc)]
      obtain ⟨w, hrun, halike⟩ := ih (s := (sendFetched (s.fetched b)).2.nextByte) (hcfg ▸ hw) hflag
        (by rwa [hat, hbuf]) (by rw [hat]; rw [List.length_cons] at hidx; omega)
        (hio.off_bus (u' := u.sent b) rfl rfl rfl rfl) rfl (hzero.2 hc)
      exact ⟨w, hrun, halike.after htrace⟩
    · rw [if_pos (hzero.not.2 hc), if_pos hc]
      exact ⟨_, rfl, ⟨_, rfl, hzero.symm⟩, hio, htrace⟩

/-! ## The addressing and the register address against BEGIN and the first SEND -/

section
variable {dev : BitVec 7} {reg len : Byte} {s : State}

/-- The state after BEGIN on the idle block `s`. -/
def State.begun (dev : BitVec 7) (s : State) : State := runBegin (accepted (.beginTrans dev) s)

theorem beginThenSends_eq (bs : List Byte) (hp : s.ph = .idle) :
    beginThenSends dev bs s = if (s.begun dev).result ≠ 0 then .next (s.begun dev) else sendEach bs (s.begun dev) := by
  rw [beginThenSends, execBegin_idle dev s hp, thenDo_next]
  rfl

theorem wbAddress_begun (hw : s.cfg.wf = true) :
    ((s.begun dev).result = 0 ↔ (wbAddress (accepted (.wrblk dev reg len) s)).1 = 0) ∧
      SameIo (wbAddress (accepted (.wrblk dev reg len) s)).2 (s.begun dev) := by
  have hstart : SameIo ((accepted (.wrblk dev reg len) s).inSeg .wbAddr) ((accepted (.beginTrans dev) s).inSeg .bt) :=
    (SameIo.refl s).off_bus rfl rfl rfl rfl
  have hcodes := Config.codes_nonZero hw
  obtain ⟨hzero, hio⟩ := address_sameEnd dev .write hcodes.wb hcodes.bt hstart
  exact ⟨hzero, hio.off_bus rfl rfl rfl rfl⟩

/-- WRBLK and the commands that stand for it, from one state. -/
theorem runWrblk_sendsAlike {bs : List Byte} (hw : s.cfg.wf = true) (hp : s.ph = .idle)
    (hbs : Memory.Holds s.buf 0 bs) (hlen : bs.length = len.toNat) :
    ∃ u, beginThenSends dev (reg :: bs) s = .next u ∧ SendsAlike (runWrblk (accepted (.wrblk dev reg len) s)) s u := by
  obtain ⟨hzero, hio⟩ := wbAddress_begun (dev := dev) (reg := reg) (len := len) hw
  have htrace := exec_extends_trace rfl (execBegin_idle dev s hp)
  rw [beginThenSends_eq _ hp, runWrblk_eq]
  generalize hv : accepted (.wrblk dev reg len) s = v at *
  have hvcfg : v.cfg = s.cfg := hv ▸ rfl
  by_cases hc : (wbAddress v).1 = 0
  case neg =>
    rw [if_pos (hzero.not.2 hc), if_pos hc]
    exact ⟨_, rfl, ⟨_, rfl, hzero.symm⟩, hio, htrace⟩
  rw [if_neg (not_not.2 (hzero.2 hc)), if_neg (not_not.2 hc), sendEach_cons reg bs rfl]
  have hacfg : ((wbAddress v).2.inSeg .wbReg).cfg = s.cfg := (wbAddress_cfg v).trans hvcfg
  have hcodes : ∀ x ∈ (wbAddress v).2.cfg.codes.wbReg.toList, x ≠ 0 :=
    (Config.codes_nonZero (c := ((wbAddress v).2.inSeg .wbReg).cfg) (hacfg ▸ hw)).wbReg
  have hreg : (wbAddress v).2.rega = reg := (wbAddress_rega v).trans (hv ▸ rfl)
  obtain ⟨hzero', hio'⟩ : (((s.begun dev).sent reg).result = 0 ↔ (wbRegByte v).1 = 0) ∧
      SameIo (wbRegByte v).2 ((s.begun dev).sent reg) := by
    rw [wbRegByte, hreg]
    exact sent_sameIo (hacfg ▸ hw) hcodes (hio.off_bus rfl rfl rfl rfl)
  have htrace' := exec_extends_trace rfl (execSend_idle reg (s.begun dev) rfl)
  by_cases hc' : (wbRegByte v).1 = 0
  case neg =>
    rw [if_pos (hzero'.not.2 hc'), if_pos hc']
    exact ⟨_, rfl, SendsAlike.after ⟨⟨_, rfl, hzero'.symm⟩, hio', htrace'⟩ htrace⟩
  rw [if_neg (not_not.2 (hzero'.2 hc')), if_neg (not_not.2 hc')]
  have hlen' : (wbRegByte v).2.len.toNat = bs.length := by rw [wbRegByte_len, ← hv, hlen]; rfl
  have hbs' : Memory.Holds (wbRegByte v).2.buf 0 bs := by rw [wbRegByte_buf, ← hv]; exact hbs
  obtain ⟨w, hrun, halike⟩ := writeLoop_sendsAlike (s := (wbRegByte v).2.startLoop .wbData) (bs := bs)
    (u := (s.begun dev).sent reg)
    (by rw [show ((wbRegByte v).2.startLoop .wbData).cfg = s.cfg from (wbRegByte_cfg v).trans hvcfg]; exact hw)
    (txByte_flag_of_zero (hacfg ▸ hw) hcodes hc') hbs' (by have := len.isLt; simp; omega)
    (hio'.off_bus rfl rfl rfl rfl) rfl (hzero'.2 hc')
  rw [hlen']
  exact ⟨w, hrun, (halike.after htrace').after htrace⟩

end

/-- A command that answers a next state was accepted by an idle block (R112). -/
theorem exec_next_idle {i : Instr} {s t : State} (h : exec i s = .next t) : s.ph = .idle := by
  by_contra hp
  rw [exec_eq, accept_busy i s hp] at h
  cases h

/-- Settles O31: both runs end with the same accesses of the IO space behind them. -/
theorem wrblkIsBeginAndSends : Obligations.WrblkIsBeginAndSends := by
  intro dev reg len s t bytes hw hlen hbuf h
  have hp := exec_next_idle h
  obtain ⟨u, hrun, ⟨c, hc, hzero⟩, hio, ese, hese⟩ :=
    runWrblk_sendsAlike (dev := dev) (reg := reg) (len := len) hw hp (Memory.holds_zero hbuf) hlen
  obtain ⟨ewr, hewr⟩ := exec_extends_trace rfl h
  rw [execWrblk_idle dev reg len s hp, wrblkOutcome, hc] at h
  cases h
  refine ⟨u, ewr, ese, hrun, hewr, hese, ?_, hzero⟩
  have hall : ioEvents (ese ++ s.trace) = ioEvents (ewr ++ s.trace) := by
    rw [← hese, ← hewr]
    exact hio.trace
  rw [ioEvents_append, ioEvents_append] at hall
  exact (List.append_cancel_right hall).symm

end Sys2Proof.Machine
end

-- ==== RDBLK under PERIPH's answers ====
section
/-! PROOFS. RDBLK under given answers of PERIPH, obligations O35 to O39. Both addressings, the register address and the
receive requests are `Served` stretches, the accepted bytes going by induction on their list (`readLoop_received`); the
stop writes CW_STOP whatever PERIPH does. `PhasesEnd` says how RDBLK's phases end, and `execRdblk_ends` what RDBLK then
is. -/

namespace Sys2Proof.Machine

/-! ## The addressings and the register address (R230) -/

/-- ADDRESS after a stretch that leaves FLAG = 1. -/
theorem Served.address {ws : List Byte} {ms : List PortEvent} {v u : State} {dir : Dir} {e : AddrEnd}
    {nacks : List (Completion × Completion)} {last : List Answer} {rest : List PeriphMove}
    (h : Served true (addressMoves v.cfg nacks last ++ rest) ws ms v u) (hw : v.cfg.wf = true)
    (ha : AddressAnswered v.cfg dir e nacks last) (g : Seg) (dev : BitVec 7) (c : AddrCodes) :
    (address dev dir c (u.inSeg g)).1 = addrEndCode c e ∧
      Served e.completes rest (ws ++ addressWords v.cfg nacks last)
        (ms ++ addressSends dev dir (addressCount nacks last)) v (address dev dir c (u.inSeg g)).2 := by
  have hcfg : (u.inSeg g).cfg = v.cfg := h.cfg
  obtain ⟨hcode, hserved⟩ := address_served dev dir c (s := u.inSeg g) (nacks := nacks) (last := last) (rest := rest)
    (hcfg ▸ hw) (hcfg ▸ ha) (by rw [periphTurn_of_flag (s := u.inSeg g) h.flag, hcfg]; exact h.script)
  rw [hcfg] at hserved
  exact ⟨hcode, h.trans (hserved.after_quiet rfl (.of_trace rfl))⟩

section
variable {v : State} {rest : List PeriphMove} {na nb : List (Completion × Completion)} {la lb : List Answer}
  {a : Answer} (hw : v.cfg.wf = true)
include hw

theorem rbAddress_served {e : AddrEnd} (h : AddressAnswered v.cfg .write e na la)
    (hs : (periphTurn v).script = addressMoves v.cfg na la ++ rest) :
    (rbAddress v).1 = addrEndCode v.cfg.codes.rbA e ∧
      Served e.completes rest (addressWords v.cfg na la) (addressSends v.dev .write (addressCount na la)) v
        (rbAddress v).2 := by
  rw [← periphTurn_script_congr (s := v) (t := v.readStart) rfl rfl rfl] at hs
  obtain ⟨hcode, hserved⟩ := address_served v.dev .write v.cfg.codes.rbA (s := v.readStart) hw h hs
  exact ⟨hcode, hserved.after_quiet rfl (.of_trace rfl)⟩

/-- The register address after an acknowledged first addressing. -/
theorem rbRegByte_served (h : AddressAnswered v.cfg .write .acked na la) (ha : a.fits v.cfg.pollLimit.toNat = true)
    (hs : (periphTurn v).script = addressMoves v.cfg na la ++ (a.moves v.cfg.pollLimit.toNat ++ rest)) :
    (rbAddress v).1 = 0 ∧ (rbRegByte v).1 = txEndCode v.cfg v.cfg.codes.rbReg a ∧
      Served a.completes rest (addressWords v.cfg na la ++ [v.cfg.cw.xfer])
        (addressSends v.dev .write (addressCount na la) ++ [.ioWrite .data v.rega]) v (rbRegByte v).2 := by
  obtain ⟨hcode, haddr⟩ := rbAddress_served hw h hs
  have hsend := haddr.txByte hw ha .rbReg v.rega v.cfg.codes.rbReg
  rw [rbRegByte, rbAddress_rega, rbAddress_cfg]
  exact ⟨hcode, hsend⟩

end

/-- The words of two addressings with the register address between them. -/
def addressedWords (c : Config) (na nb : List (Completion × Completion)) (la lb : List Answer) : List Byte :=
  addressWords c na la ++ c.cw.xfer :: addressWords c nb lb

/-- The transfers of two addressings with the register address between them. -/
def addressedSends (dev : BitVec 7) (reg : Byte) (m n : Nat) : List PortEvent :=
  addressSends dev .write m ++ .ioWrite .data reg :: addressSends dev .read n

/-- The second addressing, after an acknowledged first one and an acknowledged register address. -/
theorem rbReaddress_served {v : State} {rest : List PeriphMove} {na nb : List (Completion × Completion)}
    {la lb : List Answer} {a : Answer} {e : AddrEnd} (hw : v.cfg.wf = true)
    (h : AddressAnswered v.cfg .write .acked na la) (ha : a.fits v.cfg.pollLimit.toNat = true)
    (hack : txAcked v.cfg a = true) (hb : AddressAnswered v.cfg .read e nb lb)
    (hs : (periphTurn v).script = addressMoves v.cfg na la ++
      (a.moves v.cfg.pollLimit.toNat ++ (addressMoves v.cfg nb lb ++ rest))) :
    (rbAddress v).1 = 0 ∧ (rbRegByte v).1 = 0 ∧ (rbReaddress v).1 = addrEndCode v.cfg.codes.rbB e ∧
      Served e.completes rest (addressedWords v.cfg na nb la lb)
        (addressedSends v.dev v.rega (addressCount na la) (addressCount nb lb)) v (rbReaddress v).2 := by
  obtain ⟨hcode, hbyte, hserved⟩ := rbRegByte_served hw h ha hs
  rw [completes_of_txAcked hack] at hserved
  obtain ⟨hcode', hall⟩ := hserved.address hw hb .rbB v.dev v.cfg.codes.rbB
  rw [List.append_assoc, List.append_assoc] at hall
  rw [rbReaddress, rbRegByte_dev, rbRegByte_cfg]
  exact ⟨hcode, hbyte.trans (txEndCode_of_acked hack), hcode', hall⟩

/-! ## The receive requests (R231) -/

/-- The word of the request for byte `i` of `len`. -/
def requestWord (c : Config) (len i : Nat) : Byte := if i + 1 < len then c.cw.rxAck else c.cw.rxNack

theorem requestWords_succ (c : Config) (len n : Nat) :
    requestWords c len (n + 1) = requestWords c len n ++ [requestWord c len n] := by
  rw [requestWords, List.range_succ, List.map_append]
  rfl

theorem rxWord_eq (s : State) : rxWord s = requestWord s.cfg s.len.toNat s.idx.toNat := rfl

theorem rxWord_active {s : State} (hw : s.cfg.wf = true) : ControlWords.active s.cfg.bits (rxWord s) = true := by
  have hact := Config.triggersActive_of_wf hw
  unfold rxWord
  split
  · exact hact.rxAck
  · exact hact.rxNack

section
variable (s : State)

theorem receiveWait_accessed : Accessed [rxWord s] [] s (receiveWait s).2 := triggerWait_accessed s .rWait .rTrig _

theorem receiveStat_accessed : Accessed [rxWord s] [] s (receiveStat s) :=
  (receiveWait_accessed s).trans_quiet (doStatus_accessed _ .rStat)

theorem doReceive_doStore_accessed :
    Accessed [] (storedBytes s.idx.toNat [receivedByte s]) s (doStore (doReceive s)) := by
  obtain ⟨hmoved, -⟩ := doReceive_doStore_moved s
  obtain ⟨-, -, htrace, -⟩ := doStore_spec (doReceive s)
  have hreceive : (doReceive s).trace = .ioRead .data (receivedByte s) :: s.trace :=
    congrArg (PortEvent.ioRead .data (receivedByte s) :: ·) (enter_trace .rData s)
  rw [hreceive] at htrace
  exact .of_events (es := [_, .ioRead .data (receivedByte s)]) htrace rfl hmoved

/-- While FLAG = 1 the read of DATA and the store leave PERIPH's moves (R81). -/
theorem doReceive_doStore_of_flag {s : State} (hf : s.flag = true) :
    receivedByte s = s.data ∧ (doStore (doReceive s)).flag = true ∧ (doStore (doReceive s)).script = s.script := by
  have hreceive : doReceive s = { logEvent (.ioRead .data s.data) { s with ph := .rData } with rxb := s.data } := by
    rw [doReceive, enter_flag _ s hf]
    rfl
  have hon : (doReceive s).flag = true := by rw [hreceive]; exact hf
  rw [receivedByte, doStore, enter_flag _ _ hon, hreceive]
  exact ⟨rfl, hf, rfl⟩

end

section
variable {s : State} {rest : List PeriphMove} (hw : s.cfg.wf = true) (hf : s.flag = true)
include hw hf

theorem receiveWait_answered {a : Answer} (ha : a.fits s.cfg.pollLimit.toNat = true)
    (hs : s.script = a.moves s.cfg.pollLimit.toNat ++ rest) :
    TriggerEnds .rStat (rxWord s) rest s (receiveWait s) a :=
  triggerWait_answered .rWait .rTrig .rStat (rxWord_active hw) ha (by rw [periphTurn_of_flag hf, hs])

/-- A request that gets a byte of accepted status: the byte is stored, and the loop goes on. -/
theorem readLoop_byte_accepted (n : Nat) {c : Completion} (hc : rxAccepted s.cfg c = true)
    (hs : s.script = c.moves ++ rest) :
    readLoop (n + 1) s = readLoop n (doStore (doReceive (receiveStat s))) ∧
      Served true rest [rxWord s] (storedBytes s.idx.toNat [c.data]) s (doStore (doReceive (receiveStat s))) ∧
      (doStore (doReceive (receiveStat s))).buf = Memory.write s.buf s.idx.toNat c.data := by
  obtain ⟨hfits, hstatus⟩ := Bool.and_eq_true_iff.1 hc
  obtain ⟨hok, hreach⟩ := receiveWait_answered hw hf (a := .done c) hfits hs
  have hreach : Reached (rxWord s) (.done c) _ rest s (receiveStat s) := hreach
  obtain ⟨-, hdata, hst⟩ := hreach.completion c rfl
  obtain ⟨hbyte, hon, hmoves⟩ := doReceive_doStore_of_flag hreach.flag
  rw [hdata] at hbyte
  rw [hreach.script] at hmoves
  obtain ⟨-, -, hcfg⟩ := doReceive_doStore_keeps (receiveStat s)
  obtain ⟨-, hbuf⟩ := doReceive_doStore_moved (receiveStat s)
  have hb := receiveStat_busOnly s
  have hacc := (receiveStat_accessed s).trans (doReceive_doStore_accessed (receiveStat s))
  rw [hbyte, hb.idx] at hacc hbuf
  rw [hb.buf] at hbuf
  rw [readLoop_ok s n hok, if_pos (by rw [hreach.cfg, hst]; exact hstatus)]
  exact ⟨rfl, ⟨hcfg.trans hb.cfg, hon, hmoves, hacc⟩, hbuf⟩

/-- A request that gets a byte of another status: its masked status is left in ERR (R233). -/
theorem readLoop_byte_unexpected (n : Nat) {c : Completion} (hc : c.fits s.cfg.pollLimit.toNat = true)
    (hstatus : isRxStatus s.cfg.status (c.stat &&& s.cfg.statusMask) = false) (hs : s.script = c.moves ++ rest) :
    (readLoop (n + 1) s).err = c.stat &&& s.cfg.statusMask ∧ (readLoop (n + 1) s).buf = s.buf ∧
      Accessed [rxWord s] [] s (readLoop (n + 1) s) := by
  obtain ⟨hok, hreach⟩ := receiveWait_answered hw hf (a := .done c) hc hs
  have hreach : Reached (rxWord s) (.done c) _ rest s (receiveStat s) := hreach
  obtain ⟨-, -, hst⟩ := hreach.completion c rfl
  rw [readLoop_ok s n hok, if_neg (by rw [hreach.cfg, hst, hstatus]; exact Bool.false_ne_true)]
  exact ⟨hst, (receiveStat_busOnly s).buf, (receiveStat_accessed s).trans_quiet (.of_trace rfl)⟩

theorem readLoop_byte_timeout (n : Nat) (hs : s.script = timeoutMoves s.cfg.pollLimit.toNat ++ rest) :
    (readLoop (n + 1) s).err = s.cfg.codes.rbDataTimeout ∧ (readLoop (n + 1) s).buf = s.buf ∧
      Accessed [rxWord s] [] s (readLoop (n + 1) s) := by
  obtain ⟨htime, hreach⟩ := receiveWait_answered hw hf (a := .timeout) rfl hs
  rw [readLoop_timeout s n htime]
  exact ⟨congrArg (·.codes.rbDataTimeout) hreach.cfg, (receiveWait_busOnly s).buf,
    (receiveWait_accessed s).trans_quiet (.of_trace rfl)⟩

end

/-- From `s` the receive loop has stored the bytes `bs`, and stands in `u` at its next request. -/
structure ReceivedBytes (bs : List Byte) (rest : List PeriphMove) (s u : State) : Prop where
  served : Served true rest ((List.range' s.idx.toNat bs.length).map (requestWord s.cfg s.len.toNat))
    (storedBytes s.idx.toNat bs) s u
  idx : u.idx.toNat = s.idx.toNat + bs.length
  len : u.len = s.len
  err : u.err = s.err
  buf : u.buf = Memory.writeAll s.buf s.idx.toNat bs

/-- Accepted bytes are stored one after the other. -/
theorem readLoop_received (n : Nat) {rx : List Completion} {s : State} {rest : List PeriphMove} (hw : s.cfg.wf = true)
    (hf : s.flag = true) (hrx : ∀ c ∈ rx, rxAccepted s.cfg c = true) (hidx : s.idx.toNat + rx.length < 256)
    (hs : s.script = rx.flatMap Completion.moves ++ rest) :
    ∃ u, readLoop (rx.length + n) s = readLoop n u ∧ ReceivedBytes (rx.map Completion.data) rest s u := by
  induction rx generalizing s with
  | nil => exact ⟨s, by rw [List.length_nil, Nat.zero_add], ⟨rfl, hf, hs, .of_trace rfl⟩, rfl, rfl, rfl, rfl⟩
  | cons c rx ih =>
    rw [List.length_cons] at hidx
    rw [List.flatMap_cons, List.append_assoc] at hs
    obtain ⟨hstep, hserved, hwrite⟩ := readLoop_byte_accepted hw hf (rx.length + n) (hrx c List.mem_cons_self) hs
    have hb := receiveStat_busOnly s
    obtain ⟨hnext, hlen, -⟩ := doReceive_doStore_keeps (receiveStat s)
    have herr := (doReceive_doStore_err (receiveStat s)).trans hb.err
    rw [hb.idx] at hnext
    rw [hb.len] at hlen
    generalize doStore (doReceive (receiveStat s)) = u at *
    have hat : u.idx.toNat = s.idx.toNat + 1 := by rw [hnext]; bv_omega
    obtain ⟨t, ht, hsent, htidx, htlen, hterr, htbuf⟩ := ih (s := u) (hserved.cfg ▸ hw) hserved.flag
      (by rw [hserved.cfg]; exact fun x hx => hrx x (List.mem_cons_of_mem c hx)) (by omega) hserved.script
    rw [hserved.cfg, hat, hlen] at hsent
    rw [hat, hwrite] at htbuf
    refine ⟨t, by rw [List.length_cons, Nat.add_right_comm, hstep, ht], hserved.trans hsent, ?_, htlen.trans hlen,
      hterr.trans herr, htbuf⟩
    rw [htidx, hat, List.map_cons, List.length_cons]
    omega

/-! ## How RDBLK's phases end (R230, R290) -/

/-- RDBLK's phases before the stop, called in `v`, leave `code` in ERR, having stored the bytes `bs`. -/
structure PhasesEnd (code : Byte) (ws : List Byte) (ms : List PortEvent) (bs : List Byte) (v : State) : Prop where
  err : (readPhases v).err = code
  accessed : Accessed ws ms v (readPhases v)
  buf : (readPhases v).buf = Memory.writeAll v.buf 0 bs

section
variable {v : State} {rest : List PeriphMove} {na nb : List (Completion × Completion)} {la lb : List Answer}
  {a : Answer} {e : AddrEnd} (hw : v.cfg.wf = true)
include hw

/-- Rows 16 to 19: the first addressing fails. -/
theorem readPhases_address_failed (h : AddressAnswered v.cfg .write e na la) (he : e ≠ .acked)
    (hs : (periphTurn v).script = addressMoves v.cfg na la ++ rest) :
    PhasesEnd (addrEndCode v.cfg.codes.rbA e) (addressWords v.cfg na la)
      (addressSends v.dev .write (addressCount na la)) [] v := by
  obtain ⟨hcode, hserved⟩ := rbAddress_served hw h hs
  have hrun := readPhases_eq v
  rw [hcode, if_pos (addrEndCode_ne_zero (Config.codes_nonZero hw).rbA he)] at hrun
  constructor
  · rw [hrun]
  · rw [hrun]
    exact hserved.accessed.trans_quiet (.of_trace rfl)
  · rw [hrun]
    exact rbAddress_buf v

/-- Rows 20 and 21: the register address fails. -/
theorem readPhases_register_failed (h : AddressAnswered v.cfg .write .acked na la)
    (ha : a.fits v.cfg.pollLimit.toNat = true) (hnack : txAcked v.cfg a = false)
    (hs : (periphTurn v).script = addressMoves v.cfg na la ++ (a.moves v.cfg.pollLimit.toNat ++ rest)) :
    PhasesEnd (txFailCode v.cfg.codes.rbReg a) (addressWords v.cfg na la ++ [v.cfg.cw.xfer])
      (addressSends v.dev .write (addressCount na la) ++ [.ioWrite .data v.rega]) [] v := by
  obtain ⟨hcode, hbyte, hserved⟩ := rbRegByte_served hw h ha hs
  rw [txEndCode_of_not_acked hnack] at hbyte
  have hrun := readPhases_eq v
  rw [if_neg (not_not.2 hcode), hbyte, if_pos (txFailCode_ne_zero (Config.codes_nonZero hw).rbReg a)] at hrun
  constructor
  · rw [hrun]
  · rw [hrun]
    exact hserved.accessed.trans_quiet (.of_trace rfl)
  · rw [hrun]
    exact rbRegByte_buf v

section
variable (h : AddressAnswered v.cfg .write .acked na la) (ha : a.fits v.cfg.pollLimit.toNat = true)
  (hack : txAcked v.cfg a = true)
include h ha hack

/-- Rows 22 to 25: the second addressing fails. -/
theorem readPhases_readdress_failed (hb : AddressAnswered v.cfg .read e nb lb) (he : e ≠ .acked)
    (hs : (periphTurn v).script = addressMoves v.cfg na la ++
      (a.moves v.cfg.pollLimit.toNat ++ (addressMoves v.cfg nb lb ++ rest))) :
    PhasesEnd (addrEndCode v.cfg.codes.rbB e) (addressedWords v.cfg na nb la lb)
      (addressedSends v.dev v.rega (addressCount na la) (addressCount nb lb)) [] v := by
  obtain ⟨hcode, hbyte, hcode', hserved⟩ := rbReaddress_served hw h ha hack hb hs
  have hrun := readPhases_eq v
  rw [if_neg (not_not.2 hcode), if_neg (not_not.2 hbyte), hcode',
    if_pos (addrEndCode_ne_zero (Config.codes_nonZero hw).rbB he)] at hrun
  constructor
  · rw [hrun]
  · rw [hrun]
    exact hserved.accessed.trans_quiet (.of_trace rfl)
  · rw [hrun]
    exact rbReaddress_buf v

/-- RDBLK, called in `v`, has stored the bytes `bs` after its two addressings, and stands in `u` at its next request. -/
structure RdblkReceived (na nb : List (Completion × Completion)) (la lb : List Answer) (bs : List Byte)
    (rest : List PeriphMove) (v u : State) : Prop where
  served : Served true rest (addressedWords v.cfg na nb la lb ++ requestWords v.cfg v.len.toNat bs.length)
    (addressedSends v.dev v.rega (addressCount na la) (addressCount nb lb) ++ storedBytes 0 bs) v u
  word : rxWord u = requestWord v.cfg v.len.toNat bs.length
  err : u.err = 0
  buf : u.buf = Memory.writeAll v.buf 0 bs

theorem readPhases_received (n : Nat) (hb : AddressAnswered v.cfg .read .acked nb lb) {rx : List Completion}
    (hrx : ∀ c ∈ rx, rxAccepted v.cfg c = true) (hn : v.len.toNat = rx.length + n)
    (hs : (periphTurn v).script = addressMoves v.cfg na la ++
      (a.moves v.cfg.pollLimit.toNat ++ (addressMoves v.cfg nb lb ++ (rx.flatMap Completion.moves ++ rest)))) :
    ∃ u, readPhases v = readLoop n u ∧ RdblkReceived na nb la lb (rx.map Completion.data) rest v u := by
  obtain ⟨hcode, hbyte, hcode', hserved⟩ := rbReaddress_served hw h ha hack hb hs
  replace hcode' : (rbReaddress v).1 = 0 := hcode'
  have hcfg : ((rbReaddress v).2.startLoop .rbData).cfg = v.cfg := hserved.cfg
  have hlen : ((rbReaddress v).2.startLoop .rbData).len = v.len := rbReaddress_len v
  have hbuf : ((rbReaddress v).2.startLoop .rbData).buf = v.buf := rbReaddress_buf v
  obtain ⟨u, hu, hloop, hidx, hulen, huerr, hubuf⟩ := readLoop_received n (rx := rx)
    (s := (rbReaddress v).2.startLoop .rbData) (hcfg ▸ hw) hserved.flag (by rw [hcfg]; exact hrx)
    (by have := v.len.isLt; simp; omega) hserved.script
  rw [hcfg, hlen] at hloop
  have hall := hserved.trans (hloop.after_quiet rfl (.of_trace rfl))
  refine ⟨u, ?_, ?_, ?_, huerr.trans (rbReaddress_err v), hubuf.trans (by rw [hbuf]; rfl)⟩
  · rw [readPhases_eq, if_neg (not_not.2 hcode), if_neg (not_not.2 hbyte), if_neg (not_not.2 hcode'), rbReaddress_len,
      hn, hu]
  · rw [requestWords, List.range_eq_range']
    exact hall
  · rw [rxWord_eq, hloop.cfg, hcfg, hulen, hlen, hidx]
    exact congrArg _ (Nat.zero_add _)

end

end

section
variable {na nb : List (Completion × Completion)} {la lb : List Answer} {bs : List Byte} {rest : List PeriphMove}
  {v u : State}

/-- Every byte is received (R233). -/
theorem RdblkReceived.all (h : RdblkReceived na nb la lb bs rest v u) (hu : readPhases v = readLoop 0 u) :
    PhasesEnd 0 (addressedWords v.cfg na nb la lb ++ requestWords v.cfg v.len.toNat bs.length)
      (addressedSends v.dev v.rega (addressCount na la) (addressCount nb lb) ++ storedBytes 0 bs) bs v := by
  have hend : readPhases v = u := hu
  exact ⟨hend ▸ h.err, hend ▸ h.served.accessed, hend ▸ h.buf⟩

/-- One request more, which stores no byte, ends the phases. -/
theorem RdblkReceived.failed {code : Byte} {n : Nat} (h : RdblkReceived na nb la lb bs rest v u)
    (hu : readPhases v = readLoop (n + 1) u)
    (hlast : (readLoop (n + 1) u).err = code ∧ (readLoop (n + 1) u).buf = u.buf ∧
      Accessed [rxWord u] [] u (readLoop (n + 1) u)) :
    PhasesEnd code (addressedWords v.cfg na nb la lb ++ requestWords v.cfg v.len.toNat (bs.length + 1))
      (addressedSends v.dev v.rega (addressCount na la) (addressCount nb lb) ++ storedBytes 0 bs) bs v := by
  obtain ⟨herr, hbuf, hacc⟩ := hlast
  have hall := h.served.accessed.trans hacc
  rw [h.word, List.append_nil, List.append_assoc, ← requestWords_succ] at hall
  exact ⟨hu ▸ herr, hu ▸ hall, hu ▸ hbuf.trans h.buf⟩

end

/-! ## RDBLK's ends (R232, R233) -/

/-- After the phases CW_STOP is written, whatever the stop's WAIT does (R232). -/
theorem runRdblk_accessed {v : State} {ws : List Byte} {ms : List PortEvent} (h : Accessed ws ms v (readPhases v)) :
    Accessed (ws ++ [v.cfg.cw.stop]) ms v (runRdblk v) := by
  have hseg : Accessed [] [] (readPhases v) ((readPhases v).inSeg .rbStop) := .of_trace rfl
  have hstop := stopSeq_accessed ((readPhases v).inSeg .rbStop)
  rw [State.inSeg_cfg, readPhases_cfg] at hstop
  have hall := h.trans (hseg.quiet_trans hstop)
  rw [List.append_nil] at hall
  exact hall.trans_quiet (finish_accessed _ _)

theorem runRdblk_ctrlHolds (v : State) : ctrlHolds v.cfg.cw.stop (runRdblk v) := by
  have hstop : ctrlHolds _ (rbStop v).2 := stopSeq_ctrlHolds ((readPhases v).inSeg .rbStop)
  rw [State.inSeg_cfg, readPhases_cfg] at hstop
  rw [runRdblk_eq]
  exact hstop

section
variable {dev : BitVec 7} {reg len : Byte} {s : State}

/-- Whatever the stop's WAIT does, RESULT is what the phases left in ERR, and CW_STOP is the last word written. -/
theorem execRdblk_ends {code : Byte} {ws : List Byte} {ms : List PortEvent} {bs : List Byte} (hp : s.ph = .idle)
    (h : PhasesEnd code ws ms bs (accepted (.rdblk dev reg len) s)) :
    ∃ t evs, TransferEnds (.rdblk dev reg len) code (ws ++ [s.cfg.cw.stop]) ms evs s t ∧
      t.buf = Memory.writeAll s.buf 0 bs ∧ ctrlHolds s.cfg.cw.stop t := by
  have hexec := execRdblk_idle dev reg len s hp
  generalize hv : accepted (.rdblk dev reg len) s = v at h hexec
  have hcfg : v.cfg = s.cfg := hv ▸ rfl
  have hrun := runRdblk_accessed h.accessed
  rw [hcfg] at hrun
  have haccept : Accessed [] [] s v := hv ▸ accepted_accessed s _
  obtain ⟨evs, htrace, -, hwords, hmoved⟩ := (haccept.quiet_trans hrun).command rfl hexec
  have hctrl := runRdblk_ctrlHolds v
  rw [hcfg] at hctrl
  exact ⟨_, evs, ⟨hexec, rfl, (rbStop_err v).trans h.err, rfl, htrace, hwords, hmoved⟩,
    by rw [runRdblk_buf, h.buf, ← hv]; rfl, hctrl⟩

theorem sameBuf_of_eq {s t : State} (h : t.buf = s.buf) : sameBuf s t := fun i => congrArg (Memory.read · i) h

/-- BUF after a block has been stored from index 0 on. -/
theorem read_stored {t : State} {bs : List Byte} (h : t.buf = Memory.writeAll s.buf 0 bs) :
    (∀ i (hi : i < bs.length), Memory.read t.buf i = some bs[i]) ∧
      ∀ i, bs.length ≤ i → Memory.read t.buf i = Memory.read s.buf i := by
  rw [h]
  refine ⟨fun i hi => ?_, fun i hi => Memory.read_writeAll_other bs s.buf 0 i (.inr (by omega))⟩
  have hat := Memory.writeAll_holds bs s.buf 0 i hi
  rwa [Nat.zero_add] at hat

end

/-! ## What the transfers of RDBLK read as -/

theorem dataBytes_addressedSends (dev : BitVec 7) (reg : Byte) (na nb : List (Completion × Completion))
    (la lb : List Answer) :
    dataBytes (addressedSends dev reg (addressCount na la) (addressCount nb lb)) =
      addressBytes dev .write na la ++ reg :: addressBytes dev .read nb lb := by
  rw [addressedSends, dataBytes_append, dataBytes_addressSends_count]
  exact congrArg (addressBytes dev .write na la ++ reg :: ·) (dataBytes_addressSends_count dev .read nb lb)

theorem addressedSends_sendsOnly (dev : BitVec 7) (reg : Byte) (m n : Nat) : SendsOnly (addressedSends dev reg m n) :=
  (addressSends_sendsOnly dev .write m).append
    (SendsOnly.append (ms := [.ioWrite .data reg]) ⟨rfl, rfl⟩ (addressSends_sendsOnly dev .read n))

theorem dataBytes_storedBytes (k : Nat) (bs : List Byte) : dataBytes (storedBytes k bs) = [] := by
  induction bs generalizing k with
  | nil => rfl
  | cons b bs ih => exact ih (k + 1)

/-- RDBLK, executed in `s`, ends in `t` after its two addressings, having made `k` requests and stored the bytes `rx`,
with the status `code`. -/
structure RdblkStored (dev : BitVec 7) (reg len : Byte) (na nb : List (Completion × Completion)) (la lb : List Answer)
    (rx : List Completion) (k : Nat) (code : Byte) (evs : List PortEvent) (s t : State) : Prop where
  exec : exec (.rdblk dev reg len) s = .next t
  idle : t.ph = .idle
  result : t.result = code
  resultValid : t.resultValid = true
  trace : t.trace = evs ++ s.trace
  words : (ctrlWords evs).reverse =
    addressedWords s.cfg na nb la lb ++ requestWords s.cfg len.toNat k ++ [s.cfg.cw.stop]
  sent : (dataBytes evs).reverse = addressBytes dev .write na la ++ reg :: addressBytes dev .read nb lb
  reads : (dataReads evs).reverse = rx.map Completion.data
  writes : (bufWrites evs).reverse = (List.range rx.length).zip (rx.map Completion.data)
  stored : ∀ i (h : i < rx.length), Memory.read t.buf i = some (rx[i]).data
  kept : ∀ i, rx.length ≤ i → Memory.read t.buf i = Memory.read s.buf i

section
variable {dev : BitVec 7} {reg len : Byte} {s : State} {na nb : List (Completion × Completion)} {la lb : List Answer}
  {rx : List Completion}

theorem execRdblk_stored {k : Nat} {code : Byte} (hp : s.ph = .idle)
    (h : PhasesEnd code (addressedWords s.cfg na nb la lb ++ requestWords s.cfg len.toNat k)
      (addressedSends dev reg (addressCount na la) (addressCount nb lb) ++ storedBytes 0 (rx.map Completion.data))
      (rx.map Completion.data) (accepted (.rdblk dev reg len) s)) :
    ∃ t evs, RdblkStored dev reg len na nb la lb rx k code evs s t := by
  obtain ⟨t, evs, hends, hbuf, -⟩ := execRdblk_ends hp h
  obtain ⟨hstored, hkept⟩ := read_stored hbuf
  simp only [List.length_map, List.getElem_map] at hstored hkept
  obtain ⟨hreads, hwrites⟩ := addressedSends_sendsOnly dev reg (addressCount na la) (addressCount nb lb)
  refine ⟨t, evs, hends.exec, hends.idle, hends.result, hends.resultValid, hends.trace, hends.words, ?_, ?_, ?_,
    hstored, hkept⟩
  · rw [← dataBytes_transfers, hends.transfers, dataBytes_append, dataBytes_addressedSends, dataBytes_storedBytes,
      List.append_nil]
  · rw [← dataReads_transfers, hends.transfers, dataReads_append, hreads]
    exact dataReads_storedBytes 0 _
  · rw [← bufWrites_transfers, hends.transfers, bufWrites_append, hwrites, List.range_eq_range',
      ← List.length_map (f := Completion.data)]
    exact bufWrites_storedBytes 0 _

section
variable {a : Answer} (hw : s.cfg.wf = true) (hp : s.ph = .idle) (h : AddressAnswered s.cfg .write .acked na la)
  (ha : a.fits s.cfg.pollLimit.toNat = true) (hack : txAcked s.cfg a = true)
  (hb : AddressAnswered s.cfg .read .acked nb lb) (hrx : ∀ c ∈ rx, rxAccepted s.cfg c = true)
include hw hp h ha hack hb hrx

/-- Every byte is received. -/
theorem execRdblk_all {rest : List PeriphMove} (hlen : rx.length = len.toNat)
    (hs : (periphTurn s).script = addressMoves s.cfg na la ++ (a.moves s.cfg.pollLimit.toNat ++
      (addressMoves s.cfg nb lb ++ (rx.flatMap Completion.moves ++ rest)))) :
    ∃ t evs, RdblkStored dev reg len na nb la lb rx rx.length 0 evs s t := by
  rw [← periphTurn_script_congr (s := s) (t := accepted (.rdblk dev reg len) s) rfl rfl rfl] at hs
  obtain ⟨u, hu, hreceived⟩ :=
    readPhases_received (v := accepted (.rdblk dev reg len) s) hw h ha hack 0 hb hrx hlen.symm hs
  have hend := hreceived.all hu
  rw [List.length_map] at hend
  exact execRdblk_stored hp hend

/-- The request after the bytes `rx` gets the answer `bad`, which stores no byte. -/
theorem execRdblk_failed {rest : List PeriphMove} {bad : Answer} {code : Byte} (hlen : rx.length < len.toNat)
    (hbad : ∀ (u : State) (n : Nat), u.cfg = s.cfg → u.flag = true →
      u.script = bad.moves s.cfg.pollLimit.toNat ++ rest →
      (readLoop (n + 1) u).err = code ∧ (readLoop (n + 1) u).buf = u.buf ∧
        Accessed [rxWord u] [] u (readLoop (n + 1) u))
    (hs : (periphTurn s).script = addressMoves s.cfg na la ++ (a.moves s.cfg.pollLimit.toNat ++
      (addressMoves s.cfg nb lb ++ (rx.flatMap Completion.moves ++ (bad.moves s.cfg.pollLimit.toNat ++ rest))))) :
    ∃ t evs, RdblkStored dev reg len na nb la lb rx (rx.length + 1) code evs s t := by
  rw [← periphTurn_script_congr (s := s) (t := accepted (.rdblk dev reg len) s) rfl rfl rfl] at hs
  obtain ⟨n, hn⟩ := Nat.exists_eq_add_of_lt hlen
  obtain ⟨u, hu, hreceived⟩ :=
    readPhases_received (v := accepted (.rdblk dev reg len) s) hw h ha hack (n + 1) hb hrx hn hs
  have hserved := hreceived.served
  have hend := hreceived.failed hu (hbad u n hserved.cfg hserved.flag hserved.script)
  rw [List.length_map] at hend
  exact execRdblk_stored hp hend

end

end

/-! ## The statements about RDBLK under given answers -/

/-- Settles O38: each clause is one of the ends of RDBLK's phases before the first request. -/
theorem rdblkAddressEnds : Obligations.RdblkAddressEnds := by
  intro dev reg len s e na nb la lb r rest hw hp
  have hturn : (periphTurn s).script = (periphTurn (accepted (.rdblk dev reg len) s)).script :=
    periphTurn_script_congr rfl rfl rfl
  rw [hturn]
  refine ⟨fun h he hs => ?_, fun h hr hnack hs => ?_, fun h hr hack hb he hs => ?_⟩
  · obtain ⟨t, evs, hends, hbuf, -⟩ := execRdblk_ends hp
      (readPhases_address_failed (v := accepted (.rdblk dev reg len) s) hw (.of_addressAnswers h) he hs)
    refine ⟨t, evs, hends.exec, hends.idle, hends.result, sameBuf_of_eq hbuf, hends.trace, ?_, hends.words⟩
    rw [← dataBytes_transfers, hends.transfers]
    exact dataBytes_addressSends_count dev .write na la
  · rw [List.append_assoc] at hs
    obtain ⟨t, evs, hends, hbuf, -⟩ := execRdblk_ends hp
      (readPhases_register_failed (v := accepted (.rdblk dev reg len) s) hw (.of_addressAnswers h) hr hnack hs)
    refine ⟨t, evs, hends.exec, hends.idle, hends.result, sameBuf_of_eq hbuf, hends.trace, ?_, ?_⟩
    · rw [← dataBytes_transfers, hends.transfers, dataBytes_append]
      exact congrArg (· ++ [reg]) (dataBytes_addressSends_count dev .write na la)
    · rw [hends.words, List.append_assoc]
      rfl
  · rw [List.append_assoc, List.append_assoc] at hs
    obtain ⟨t, evs, hends, hbuf, -⟩ := execRdblk_ends hp
      (readPhases_readdress_failed (v := accepted (.rdblk dev reg len) s) hw (.of_addressAnswers h) hr hack
        (.of_addressAnswers hb) he hs)
    refine ⟨t, evs, hends.exec, hends.idle, hends.result, sameBuf_of_eq hbuf, hends.trace, ?_, hends.words⟩
    rw [← dataBytes_transfers, hends.transfers]
    exact dataBytes_addressedSends dev reg na nb la lb

/-- Settles O39: all bytes are received, or a request times out after the first of them. -/
theorem rdblkDataEnds : Obligations.RdblkDataEnds := by
  intro dev reg len s na nb la lb r rx rest hw hp h hr hack hb hrx
  have ha := AddressAnswered.of_addressAnswers h
  have hb := AddressAnswered.of_addressAnswers hb
  refine ⟨fun hlen hs => ?_, fun hlen hs => ?_⟩
  · simp only [List.append_assoc] at hs
    obtain ⟨t, evs, hends⟩ := execRdblk_all (dev := dev) (reg := reg) hw hp ha hr hack hb hrx hlen hs
    exact ⟨t, evs, hends.exec, hends.idle, hends.result, hends.trace, hlen ▸ hends.words, hends.sent, hends.reads,
      hends.writes, hends.stored, hends.kept⟩
  · simp only [List.append_assoc] at hs
    obtain ⟨t, evs, hends⟩ := execRdblk_failed (dev := dev) (reg := reg) (bad := .timeout) hw hp ha hr hack hb hrx hlen
      (fun u n hcfg hflag hscript => hcfg ▸ readLoop_byte_timeout (hcfg ▸ hw) hflag n (hcfg ▸ hscript)) hs
    exact ⟨t, evs, hends.exec, hends.idle, hends.result, hends.trace, hends.words, hends.sent, hends.reads,
      hends.writes, hends.stored, hends.kept⟩

/-- The requests of a whole block: all but the last ask for an acknowledge (R231). -/
theorem requestWords_all (c : Config) (len : Byte) :
    requestWords c len.toNat len.toNat =
      List.replicate (len.toNat - 1) c.cw.rxAck ++ (if len = 0 then [] else [c.cw.rxNack]) := by
  by_cases h0 : len = 0
  · subst h0
    rfl
  obtain ⟨n, hn⟩ := Nat.exists_eq_succ_of_ne_zero fun h => h0 (BitVec.eq_of_toNat_eq h)
  have hfirst : requestWords c (n + 1) n = List.replicate n c.cw.rxAck := by
    refine List.eq_replicate_iff.2 ⟨by simp [requestWords], fun w hword => ?_⟩
    obtain ⟨i, hi, rfl⟩ := List.mem_map.1 hword
    exact if_pos (Nat.succ_lt_succ (List.mem_range.1 hi))
  have hlast : requestWord c (n + 1) n = c.cw.rxNack := if_neg (Nat.lt_irrefl _)
  rw [if_neg h0, hn, requestWords_succ, hfirst, hlast]
  rfl

/-- Settles O35: both addressings are acknowledged at their first attempt, and every byte is received. -/
theorem rdblkReceives : Obligations.RdblkReceives := by
  intro dev reg len s a b r rx rest hw hp hstart hgood haddr hack hr hrack hstart' hgood' haddr' hack' hlen hrx hs
  have ha : AddressAnswered s.cfg .write .acked [] [.done a.1, .done a.2] :=
    addressAnswered_first hstart hgood haddr hack
  have hb : AddressAnswered s.cfg .read .acked [] [.done b.1, .done b.2] :=
    addressAnswered_first hstart' hgood' haddr' hack'
  rw [← addressMoves_first s.cfg a, ← addressMoves_first s.cfg b] at hs
  simp only [List.append_assoc] at hs
  obtain ⟨t, evs, hends⟩ := execRdblk_all (dev := dev) (reg := reg) (a := .done r) hw hp ha hr (beq_iff_eq.2 hrack) hb
    (fun c hc => Bool.and_eq_true_iff.2 (hrx c hc)) hlen hs
  refine ⟨t, evs, hends.exec, hends.idle, hends.result, hends.resultValid, hends.trace, hends.stored, hlen ▸ hends.kept,
    hends.sent, ?_⟩
  rw [hends.words, hlen, requestWords_all, ← List.append_assoc]
  rfl

/-- Settles O36: the byte of unexpected status is the answer to the request after the accepted ones. -/
theorem rdblkUnexpectedStatus : Obligations.RdblkUnexpectedStatus := by
  intro dev reg len s a b r bad rx rest hw hp hstart hgood haddr hack hr hrack hstart' hgood' haddr' hack' hlen hrx
    hbad hstatus hs
  have ha : AddressAnswered s.cfg .write .acked [] [.done a.1, .done a.2] :=
    addressAnswered_first hstart hgood haddr hack
  have hb : AddressAnswered s.cfg .read .acked [] [.done b.1, .done b.2] :=
    addressAnswered_first hstart' hgood' haddr' hack'
  rw [← addressMoves_first s.cfg a, ← addressMoves_first s.cfg b] at hs
  simp only [List.append_assoc] at hs
  obtain ⟨t, evs, hends⟩ := execRdblk_failed (dev := dev) (reg := reg) (a := .done r) (bad := .done bad) hw hp ha hr
    (beq_iff_eq.2 hrack) hb (fun c hc => Bool.and_eq_true_iff.2 (hrx c hc)) hlen
    (fun u n hcfg hflag hscript =>
      hcfg ▸ readLoop_byte_unexpected (hcfg ▸ hw) hflag n (hcfg ▸ hbad) (hcfg ▸ hstatus) hscript) hs
  exact ⟨t, evs, hends.exec, hends.idle, hends.resultValid, hends.result, hends.trace, hends.reads, hends.writes,
    hends.stored, hends.kept⟩

section
variable {dev : BitVec 7} {reg len : Byte} {s : State} {e : AddrEnd} {x : Answer} {rest : List PeriphMove}

/-- RDBLK whose first start fails: one word and no byte before the stop. -/
theorem execRdblk_start_failed (hw : s.cfg.wf = true) (hp : s.ph = .idle)
    (h : LastAttempt s.cfg .write s.cfg.addrRetries.toNat e [x]) (he : e ≠ .acked)
    (hs : (periphTurn s).script = x.moves s.cfg.pollLimit.toNat ++ rest) :
    ∃ t evs, exec (.rdblk dev reg len) s = .next t ∧ t.ph = .idle ∧ t.result = addrEndCode s.cfg.codes.rbA e ∧
      sameBuf s t ∧ t.trace = evs ++ s.trace ∧ (ctrlWords evs).reverse = [s.cfg.cw.start, s.cfg.cw.stop] ∧
      dataBytes evs = [] ∧ ctrlHolds s.cfg.cw.stop t := by
  have hanswered : AddressAnswered s.cfg .write e [] [x] := ⟨Nat.zero_le _, nofun, h⟩
  have hmoves : addressMoves s.cfg [] [x] = x.moves s.cfg.pollLimit.toNat := by simp [addressMoves]
  rw [← periphTurn_script_congr (s := s) (t := accepted (.rdblk dev reg len) s) rfl rfl rfl, ← hmoves] at hs
  obtain ⟨t, evs, hends, hbuf, hctrl⟩ := execRdblk_ends hp
    (readPhases_address_failed (v := accepted (.rdblk dev reg len) s) hw hanswered he hs)
  refine ⟨t, evs, hends.exec, hends.idle, hends.result, sameBuf_of_eq hbuf, hends.trace, hends.words, ?_, hctrl⟩
  rw [← List.reverse_eq_nil_iff, ← dataBytes_transfers, hends.transfers]
  rfl

/-- Settles O37: the two ends at the first start. -/
theorem rdblkStopsAfterFailure : Obligations.RdblkStopsAfterFailure :=
  ⟨fun _ _ _ _ _ hw hp hs => execRdblk_start_failed (x := .timeout) hw hp .startTimeout nofun hs,
    fun _ _ _ _ _ _ hw hp hfits hbad hs => execRdblk_start_failed hw hp (.startStatus hfits hbad) nofun hs⟩

end

end Sys2Proof.Machine
end

-- ==== RDBLK whatever PERIPH does ====
section
/-! PROOFS. RDBLK whatever PERIPH does, obligation O33: what its phases can leave in ERR (`PhasesErr`), which words they
write to CTRL, and that nothing reads BUF. -/

namespace Sys2Proof.Machine

/-! ## What the phases leave in ERR (R233) -/

/-- From `s` to `t` STAT is read, and the byte returned is `v`. -/
def StatRead (v : Byte) (s t : State) : Prop := ∃ es, t.trace = es ++ s.trace ∧ .ioRead .stat v ∈ es

section
variable {v : Byte} {s t u : State}

theorem StatRead.trans_underway (h : StatRead v s t) (k : Underway t u) : StatRead v s u := by
  obtain ⟨es, hes, hmem⟩ := h
  obtain ⟨fs, -, hfs⟩ := k.events
  exact ⟨fs ++ es, by rw [hfs, hes, List.append_assoc], List.mem_append_right _ hmem⟩

theorem StatRead.after_underway (h : StatRead v t u) (k : Underway s t) : StatRead v s u := by
  obtain ⟨es, hes, hmem⟩ := h
  obtain ⟨fs, -, hfs⟩ := k.events
  exact ⟨es ++ fs, by rw [hes, hfs, List.append_assoc], List.mem_append_left _ hmem⟩

theorem StatRead.mem {evs : List PortEvent} (h : StatRead v s t) (ht : t.trace = evs ++ s.trace) :
    .ioRead .stat v ∈ evs := by
  obtain ⟨es, hes, hmem⟩ := h
  rw [ht, List.append_cancel_right_eq] at hes
  exact hes ▸ hmem

end

/-- `code` is the masked value of a byte that STAT returned between `s` and `t`, of no accepted receive status. -/
def UnexpectedStatus (code : Byte) (s t : State) : Prop :=
  (∃ v, code = v &&& s.cfg.statusMask ∧ StatRead v s t) ∧ isRxStatus s.cfg.status code = false

theorem UnexpectedStatus.after_underway {code : Byte} {s t u : State} (h : UnexpectedStatus code t u)
    (k : Underway s t) : UnexpectedStatus code s u := by
  obtain ⟨⟨v, hv, hread⟩, hstatus⟩ := h
  rw [k.cfg] at hv hstatus
  exact ⟨⟨v, hv, hread.after_underway k⟩, hstatus⟩

theorem UnexpectedStatus.trans_underway {code : Byte} {s t u : State} (h : UnexpectedStatus code s t)
    (k : Underway t u) : UnexpectedStatus code s u := by
  obtain ⟨⟨v, hv, hread⟩, hstatus⟩ := h
  exact ⟨⟨v, hv, hread.trans_underway k⟩, hstatus⟩

section
variable (s : State)

theorem receiveWait_underway : Underway s (receiveWait s).2 := triggerWait_underway s .rWait .rTrig _

theorem doReceive_doStore_underway : Underway s (doStore (doReceive s)) :=
  (doReceive_underway s).trans (doStore_underway _)

theorem receiveStat_underway : Underway s (receiveStat s) :=
  (receiveWait_underway s).trans (doStatus_underway _ .rStat)

/-- ST holds the masked value of the byte that the request's status read returned (R127). -/
theorem receiveStat_read : ∃ v, (receiveStat s).st = v &&& s.cfg.statusMask ∧ StatRead v s (receiveStat s) := by
  obtain ⟨v, htrace, hst⟩ := doStatus_read (receiveWait s).2 .rStat
  rw [(receiveWait_busOnly s).cfg] at hst
  have hread : StatRead v (receiveWait s).2 (receiveStat s) := ⟨_, htrace, List.mem_cons_self⟩
  exact ⟨v, hst, hread.after_underway (receiveWait_underway s)⟩

end

theorem readLoop_err (n : Nat) (s : State) :
    (readLoop n s).err = s.err ∨ (readLoop n s).err = s.cfg.codes.rbDataTimeout ∨
      UnexpectedStatus (readLoop n s).err s (readLoop n s) := by
  induction n generalizing s with
  | zero => exact .inl rfl
  | succ n ih =>
    cases he : (receiveWait s).1 with
    | timeout =>
      rw [readLoop_timeout s n he]
      exact .inr (.inl (congrArg (·.codes.rbDataTimeout) (receiveWait_busOnly s).cfg))
    | ok =>
      have hb := receiveStat_busOnly s
      cases hs : isRxStatus (receiveStat s).cfg.status (receiveStat s).st with
      | true =>
        have hunderway := (receiveStat_underway s).trans (doReceive_doStore_underway (receiveStat s))
        have hkeep := (doReceive_doStore_err (receiveStat s)).trans hb.err
        have hrest := ih (doStore (doReceive (receiveStat s)))
        rw [readLoop_ok s n he, if_pos hs]
        rw [hkeep, hunderway.cfg] at hrest
        exact hrest.imp_right (.imp_right (·.after_underway hunderway))
      | false =>
        obtain ⟨v, hst, hread⟩ := receiveStat_read s
        rw [readLoop_ok s n he, if_neg (by rw [hs]; exact Bool.false_ne_true)]
        refine .inr (.inr ⟨⟨v, hst, hread.trans_underway (withErr_underway _ _)⟩, ?_⟩)
        rw [hb.cfg] at hs
        exact hs

theorem rbReaddress_underway (v : State) : Underway v (rbReaddress v).2 := by
  have haddr : Underway v (rbAddress v).2 := (readStart_underway v).trans (address_underway v.readStart _ _ _)
  have hbyte : Underway v (rbRegByte v).2 := haddr.trans ((inSeg_underway _ .rbReg).trans (txByte_underway _ _ _))
  exact hbyte.trans ((inSeg_underway _ .rbB).trans (address_underway _ _ _ _))

/-- The eleven codes of RDBLK. -/
def rdblkCodes (c : ResultCodes) : List Byte := c.rbA.toList ++ c.rbReg.toList ++ c.rbB.toList ++ [c.rbDataTimeout]

theorem readPhases_err (v : State) :
    (readPhases v).err = 0 ∨ (readPhases v).err ∈ rdblkCodes v.cfg.codes ∨
      UnexpectedStatus (readPhases v).err v (readPhases v) := by
  rw [rdblkCodes, List.mem_append, List.mem_append, List.mem_append, List.mem_singleton, readPhases_eq]
  split
  · have hcode := address_code v.dev .write v.cfg.codes.rbA v.readStart
    exact hcode.imp_right (.inl ∘ .inl ∘ .inl ∘ .inl)
  split
  · have hcode := txByte_code (rbAddress v).2.rega (rbAddress v).2.cfg.codes.rbReg ((rbAddress v).2.inSeg .rbReg)
    have hcfg : (rbAddress v).2.cfg.codes.rbReg = v.cfg.codes.rbReg := congrArg (·.codes.rbReg) (rbAddress_cfg v)
    exact hcode.imp_right fun h => .inl (.inl (.inl (.inr (hcfg ▸ h))))
  split
  · have hcode := address_code (rbRegByte v).2.dev .read (rbRegByte v).2.cfg.codes.rbB ((rbRegByte v).2.inSeg .rbB)
    have hcfg : (rbRegByte v).2.cfg.codes.rbB = v.cfg.codes.rbB := congrArg (·.codes.rbB) (rbRegByte_cfg v)
    exact hcode.imp_right fun h => .inl (.inl (.inr (hcfg ▸ h)))
  · have hunderway : Underway v ((rbReaddress v).2.startLoop .rbData) :=
      (rbReaddress_underway v).trans (startLoop_underway _ .rbData)
    have hloop := readLoop_err (rbReaddress v).2.len.toNat ((rbReaddress v).2.startLoop .rbData)
    rw [State.startLoop_err, rbReaddress_err, hunderway.cfg] at hloop
    exact hloop.imp_right (.imp .inr (·.after_underway hunderway))

/-! ## The words of the phases (R230), and that they do not read BUF -/

/-- From `s` to `t` CTRL receives words of `ws` only, and BUF is not read. -/
def NoBufRead (ws : List Byte) (s t : State) : Prop :=
  ∃ vs ms, vs ⊆ ws ∧ bufReads ms = [] ∧ Accessed vs ms s t

theorem bufReads_storedBytes (k : Nat) (bs : List Byte) : bufReads (storedBytes k bs) = [] := by
  induction bs generalizing k with
  | nil => rfl
  | cons b bs ih => exact ih (k + 1)

section
variable {ws : List Byte} {s t u : State}

theorem NoBufRead.of_trace (h : t.trace = s.trace) : NoBufRead ws s t := ⟨[], [], List.nil_subset ws, rfl, .of_trace h⟩

theorem NoBufRead.trans (h : NoBufRead ws s t) (k : NoBufRead ws t u) : NoBufRead ws s u := by
  obtain ⟨vs, ms, hvs, hms, hacc⟩ := h
  obtain ⟨us, ns, hus, hns, kacc⟩ := k
  exact ⟨vs ++ us, ms ++ ns, List.append_subset.2 ⟨hvs, hus⟩, by rw [bufReads_append, hms, hns]; rfl, hacc.trans kacc⟩

theorem address_noBufRead (dev : BitVec 7) (dir : Dir) (c : AddrCodes) (hstart : s.cfg.cw.start ∈ ws)
    (hxfer : s.cfg.cw.xfer ∈ ws) : NoBufRead ws s (address dev dir c s).2 := by
  obtain ⟨vs, hvs, hwords⟩ := address_ctrlWordsIn dev dir c hstart hxfer
  obtain ⟨n, hmoved⟩ := address_moved s dev dir c
  exact ⟨vs.reverse, _, fun x hx => hvs (List.mem_reverse.1 hx), bufReads_addressSends dev dir n,
    by rw [hwords, List.reverse_append], hmoved⟩

theorem txByte_noBufRead (v : Byte) (k : TxCodes) (hxfer : s.cfg.cw.xfer ∈ ws) : NoBufRead ws s (txByte v k s).2 :=
  ⟨_, _, List.cons_subset.2 ⟨hxfer, List.nil_subset ws⟩, rfl, txByte_accessed s v k⟩

theorem rxWord_subset (hack : s.cfg.cw.rxAck ∈ ws) (hnack : s.cfg.cw.rxNack ∈ ws) : [rxWord s] ⊆ ws := by
  refine List.cons_subset.2 ⟨?_, List.nil_subset ws⟩
  unfold rxWord
  split
  · exact hack
  · exact hnack

theorem readLoop_noBufRead (n : Nat) (hack : s.cfg.cw.rxAck ∈ ws) (hnack : s.cfg.cw.rxNack ∈ ws) :
    NoBufRead ws s (readLoop n s) := by
  induction n generalizing s with
  | zero => exact .of_trace rfl
  | succ n ih =>
    have hwait : NoBufRead ws s (receiveWait s).2 := ⟨_, _, rxWord_subset hack hnack, rfl, receiveWait_accessed s⟩
    have hstat : NoBufRead ws s (receiveStat s) := ⟨_, _, rxWord_subset hack hnack, rfl, receiveStat_accessed s⟩
    have hstore : NoBufRead ws (receiveStat s) (doStore (doReceive (receiveStat s))) :=
      ⟨_, _, List.nil_subset ws, bufReads_storedBytes _ _, doReceive_doStore_accessed _⟩
    have hcfg := ((receiveStat_underway s).trans (doReceive_doStore_underway (receiveStat s))).cfg
    cases he : (receiveWait s).1 with
    | timeout => rw [readLoop_timeout s n he]; exact hwait.trans (.of_trace rfl)
    | ok =>
      rw [readLoop_ok s n he]
      split
      · exact (hstat.trans hstore).trans (ih (by rwa [hcfg]) (by rwa [hcfg]))
      · exact hstat.trans (.of_trace rfl)

theorem readPhases_noBufRead {v : State} (hstart : v.cfg.cw.start ∈ ws) (hxfer : v.cfg.cw.xfer ∈ ws)
    (hack : v.cfg.cw.rxAck ∈ ws) (hnack : v.cfg.cw.rxNack ∈ ws) : NoBufRead ws v (readPhases v) := by
  have hseg {r : State} (g : Seg) : NoBufRead ws r (r.inSeg g) := .of_trace rfl
  have haddr : NoBufRead ws v (rbAddress v).2 :=
    (NoBufRead.of_trace (s := v) (t := v.readStart) rfl).trans
      (address_noBufRead v.dev .write v.cfg.codes.rbA (s := v.readStart) hstart hxfer)
  have hbyte : NoBufRead ws v (rbRegByte v).2 :=
    (haddr.trans (hseg .rbReg)).trans (txByte_noBufRead _ _ (by rwa [State.inSeg_cfg, rbAddress_cfg]))
  have hagain : NoBufRead ws v (rbReaddress v).2 :=
    (hbyte.trans (hseg .rbB)).trans
      (address_noBufRead _ _ _ (by rwa [State.inSeg_cfg, rbRegByte_cfg]) (by rwa [State.inSeg_cfg, rbRegByte_cfg]))
  rw [readPhases_eq]
  split
  · exact haddr.trans (.of_trace rfl)
  split
  · exact hbyte.trans (.of_trace rfl)
  split
  · exact hagain.trans (.of_trace rfl)
  · have hloop : NoBufRead ws (rbReaddress v).2 ((rbReaddress v).2.startLoop .rbData) := .of_trace rfl
    rw [← rbReaddress_cfg] at hack hnack
    exact (hagain.trans hloop).trans (readLoop_noBufRead _ (s := (rbReaddress v).2.startLoop .rbData) hack hnack)

end

/-! ## RDBLK (R230, R232, R233) -/

/-- RDBLK's status is what its phases left in ERR. -/
theorem runRdblk_result (v : State) :
    (runRdblk v).result = 0 ∨ (runRdblk v).result ∈ rdblkCodes v.cfg.codes ∨
      UnexpectedStatus (runRdblk v).result v (runRdblk v) := by
  have hstop : Underway (readPhases v) (rbStop v).2 := (inSeg_underway _ .rbStop).trans (stopSeq_underway _)
  have hres : (runRdblk v).result = (readPhases v).err := rbStop_err v
  rw [hres]
  refine (readPhases_err v).imp_right (.imp_right fun h => ?_)
  obtain ⟨⟨x, hx, es, htrace, hmem⟩, hstatus⟩ := h.trans_underway hstop
  exact ⟨⟨x, hx, .finished (some (rbStop v).2.err) :: es, congrArg (PortEvent.finished _ :: ·) htrace,
    List.mem_cons_of_mem _ hmem⟩, hstatus⟩

/-- Settles O33: ERR's possible values, and the words and transfers of the phases and the stop. -/
theorem rdblkCompletes : Obligations.RdblkCompletes := by
  intro dev reg len s hp
  have hexec := execRdblk_idle dev reg len s hp
  have hresult := runRdblk_result (accepted (.rdblk dev reg len) s)
  obtain ⟨vs, ms, hvs, hms, hacc⟩ := readPhases_noBufRead (v := accepted (.rdblk dev reg len) s)
    (ws := [s.cfg.cw.start, s.cfg.cw.xfer, s.cfg.cw.rxAck, s.cfg.cw.rxNack]) (by simp) (by simp) (by simp) (by simp)
  obtain ⟨evs, htrace, hhead, hwords, htransfers⟩ :=
    ((accepted_accessed s _).quiet_trans (runRdblk_accessed hacc)).command rfl hexec
  have hframe := rbStop_busOnly s (accepted (.rdblk dev reg len) s)
  rw [← htransfers, bufReads_transfers, List.reverse_eq_nil_iff] at hms
  refine ⟨_, evs, vs.reverse, hexec, rfl, rfl, ?_, htrace, hhead, ?_, fun w hw => ?_,
    runRdblk_ctrlHolds (accepted (.rdblk dev reg len) s), hms, ⟨hframe.div, hframe.pu, hframe.cfg, hframe.host⟩⟩
  · refine hresult.imp_right (.imp_right fun h => ?_)
    obtain ⟨⟨v, hv, hread⟩, hstatus⟩ := h.after_underway (accepted_underway (.rdblk dev reg len) s)
    exact ⟨⟨v, hv, hread.mem htrace⟩, hstatus⟩
  · rw [← List.reverse_reverse (ctrlWords evs), hwords, List.reverse_append]
    rfl
  · simpa using hvs (List.mem_reverse.1 hw)

end Sys2Proof.Machine
end

-- ==== STOP and RESET ====
section
/-! PROOFS. STOP and RESET, obligations O14, O15, O17 and O18. STOP's result is decided by how the WAIT of STOPSEQ ends:
`stopSeq_ends` says what any PERIPH can make of that WAIT, `stopSeq_answered` what it is under a given answer. RESET is one
turn of PERIPH and then a state written out in full (`runReset_accepted`), from which both of its statements follow. -/

namespace Sys2Proof.Machine

/-! ## STOPSEQ (R180) -/

/-- How a WAIT ends under the answer. -/
def Answer.waitEnd : Answer → WaitEnd
  | .timeout => .timeout
  | .done _ => .ok

theorem one_le_pollLimit {c : Config} (h : c.wf = true) : 1 ≤ c.pollLimit.toNat :=
  Nat.one_le_iff_ne_zero.2 fun hzero => pollLimit_ne_zero h (BitVec.eq_of_toNat_eq hzero)

section
variable {s : State}

/-- Whatever PERIPH does, STOPSEQ writes CW_STOP and polls, to the first poll that sees FLAG = 1 or to the end of POLL. -/
theorem stopSeq_ends (hw : s.cfg.wf = true) :
    ∃ k, 1 ≤ k ∧ k ≤ s.cfg.pollLimit.toNat ∧
      (((stopSeq s).1 = .ok ∧ (stopSeq s).2.flag = true ∧
          (stopSeq s).2.trace = pollsDone k ++ .ioWrite .ctrl s.cfg.cw.stop :: s.trace) ∨
        ((stopSeq s).1 = .timeout ∧ (stopSeq s).2.flag = false ∧ k = s.cfg.pollLimit.toNat ∧
          (stopSeq s).2.trace = pollsTimeout k ++ .ioWrite .ctrl s.cfg.cw.stop :: s.trace)) := by
  obtain ⟨-, -, hpoll, -, -, -, -, -, -, -, -, -, -, -, -, htrace⟩ := doTrigger_spec .sTrig s.cfg.cw.stop s
  obtain ⟨hoff, -⟩ := doTrigger_active .sTrig s.cfg.cw.stop s (Config.triggersActive_of_wf hw).stop
  obtain ⟨k, hk, -, hend⟩ := waitBounded .sWait (doTrigger .sTrig s.cfg.cw.stop s)
  rw [hpoll] at hk hend
  rw [htrace] at hend
  rcases hend with ⟨hok, hpos, ht, hf⟩ | ⟨htime, rfl, ht⟩
  · exact ⟨k, hpos, hk, .inl ⟨hok, hf, ht⟩⟩
  · exact ⟨_, one_le_pollLimit hw, hk, .inr ⟨htime, waitLoop_timeout_flag .sWait _ hoff htime, rfl, ht⟩⟩

/-- STOPSEQ reads no STAT, so the phase that `triggerWait_done` names for that read does not matter. -/
theorem stopSeq_answered {a : Answer} (hw : s.cfg.wf = true) (ha : a.fits s.cfg.pollLimit.toNat = true)
    (hs : (periphTurn s).script = a.moves s.cfg.pollLimit.toNat) : (stopSeq s).1 = a.waitEnd := by
  have hactive := (Config.triggersActive_of_wf hw).stop
  rw [← List.append_nil (a.moves _)] at hs
  cases a with
  | timeout =>
    obtain ⟨htime, -⟩ := triggerWait_timeout .sWait .sTrig hactive hs
    exact htime
  | done c =>
    obtain ⟨hok, -⟩ := triggerWait_done .sWait .sTrig .idle hactive ha hs
    exact hok

end

/-! ## STOP (R250, R251) -/

/-- STOP's result, as the WAIT of its STOPSEQ ends. -/
def stopCode (c : Config) : WaitEnd → Byte
  | .ok => 0
  | .timeout => c.codes.stTimeout

/-- The state in which STOP calls STOPSEQ. -/
def State.stopStart (s : State) : State := (accepted .stop s).inSeg .st

section
variable {s : State} (hp : s.ph = .idle)
include hp

theorem execStop_eq_finish :
    exec .stop s = .next (finish (stopCode s.cfg (stopSeq s.stopStart).1) (stopSeq s.stopStart).2) := by
  have hcfg : (stopSeq s.stopStart).2.cfg = s.cfg := (stopSeq_busOnly s.stopStart).cfg
  rw [execStop_idle s hp, runStop_code, ← State.stopStart, hcfg]
  cases (stopSeq s.stopStart).1 with
  | ok => rfl
  | timeout => rfl

theorem execStop_answered {a : Answer} (hw : s.cfg.wf = true) (ha : a.fits s.cfg.pollLimit.toNat = true)
    (hs : (periphTurn s).script = a.moves s.cfg.pollLimit.toNat) :
    ∃ t, exec .stop s = .next t ∧ t.result = stopCode s.cfg a.waitEnd := by
  rw [← periphTurn_script_congr (s := s) (t := s.stopStart) rfl rfl rfl] at hs
  have hend : (stopSeq s.stopStart).1 = a.waitEnd := stopSeq_answered hw ha hs
  exact ⟨_, execStop_eq_finish hp, by rw [finish_result, hend]⟩

end

/-- Settles O17: the two ends of STOPSEQ's WAIT. -/
theorem stopResult : Obligations.StopResult := by
  intro s hw hp
  have hbus := stopSeq_busOnly s.stopStart
  have hexec := execStop_eq_finish hp
  obtain ⟨k, hpos, hle, hend⟩ := stopSeq_ends (s := s.stopStart) hw
  refine ⟨_, k, hexec, rfl, rfl, hpos, hle, stopSeq_ctrlHolds s.stopStart, ?_, hbus.sameSetup, hbus.sameBuf⟩
  rcases hend with ⟨hok, hflag, htrace⟩ | ⟨htime, hflag, hk, htrace⟩
  · rw [hok]
    refine .inl ⟨rfl, hflag, ?_⟩
    rw [finish_trace, htrace, List.append_assoc]
    rfl
  · rw [htime]
    refine .inr ⟨rfl, hflag, hk, ?_⟩
    rw [finish_trace, htrace, List.append_assoc]
    rfl

/-- Some script leaves PERIPH the given moves after its next turn: where PERIPH is enabled, the turn takes a move of its
own. -/
theorem exists_script_after_turn (moves : List PeriphMove) (s : State) :
    ∃ script, (periphTurn { s with script := script }).script = moves := by
  cases hon : periphEnabled s with
  | false => exact ⟨moves, congrArg State.script (periphTurn_disabled { s with script := moves } hon)⟩
  | true =>
    simp only [periphEnabled, Bool.and_eq_true, Bool.not_eq_true'] at hon
    obtain ⟨hf, he⟩ := hon
    exact ⟨.stay :: moves,
      congrArg State.script (periphTurn_script { s with script := .stay :: moves } .stay moves hf he rfl)⟩

theorem exists_script_stop {s : State} (hw : s.cfg.wf = true) (hp : s.ph = .idle) {a : Answer}
    (ha : a.fits s.cfg.pollLimit.toNat = true) :
    ∃ script t, exec .stop { s with script := script } = .next t ∧ t.result = stopCode s.cfg a.waitEnd := by
  obtain ⟨script, hscript⟩ := exists_script_after_turn (a.moves s.cfg.pollLimit.toNat) s
  exact ⟨script, execStop_answered (s := { s with script := script }) hp hw ha hscript⟩

/-- Settles O18: a completion at the first poll, and a timeout. -/
theorem stopBothOutcomes : Obligations.StopBothOutcomes := by
  intro s hw hp
  have hfits : Completion.fits s.cfg.pollLimit.toNat ⟨1, 0, 0⟩ = true :=
    Completion.fits_iff.2 ⟨Nat.le_refl 1, one_le_pollLimit hw⟩
  exact ⟨exists_script_stop hw hp (a := .done ⟨1, 0, 0⟩) hfits, exists_script_stop hw hp (a := .timeout) rfl⟩

/-! ## RESET (R255, R256) -/

theorem Config.reset_of_wf {c : Config} (h : c.wf = true) : c.cw.reset = 0 := by
  have hcw : c.cw.wf c.bits = true := by simp_all [Config.wf]
  simp only [ControlWords.wf, Bool.and_eq_true, beq_iff_eq] at hcw
  obtain ⟨-, hreset⟩ := hcw
  exact hreset

theorem writeCtrl_zero (s : State) :
    writeCtrl 0 s = logEvent (.ioWrite .ctrl 0)
      { s with en := false, sta := false, sto := false, ea := false, flag := false } := by
  simp [writeCtrl, flagAfterCtrlWrite]

theorem periphMove_accepted_inSeg (m : PeriphMove) (i : Instr) (g : Seg) (s : State) :
    periphMove m ((accepted i s).inSeg g) = (accepted i (periphMove m s)).inSeg g := by
  cases m with
  | stay => rfl
  | complete x y => cases i <;> rfl

/-- Acceptance and SEG change nothing that PERIPH's turn looks at or writes (R79). -/
theorem periphTurn_accepted_inSeg (i : Instr) (g : Seg) (s : State) :
    periphTurn ((accepted i s).inSeg g) = (accepted i (periphTurn s)).inSeg g := by
  have hon : periphEnabled ((accepted i s).inSeg g) = periphEnabled s := by simp [periphEnabled, State.inSeg]
  have hscript : ((accepted i s).inSeg g).script = s.script := accepted_script s i
  rcases periphTurn_cases s with ⟨hoff, hturn⟩ | ⟨hen, m, ⟨rest, hs, hturn⟩ | ⟨hs, rfl, hturn⟩⟩
  · rw [hturn, periphTurn_disabled _ (hon.trans hoff)]
  · rw [hturn, ← periphMove_accepted_inSeg, periphTurn, hon, hen, if_pos rfl, hscript, hs]
    cases i <;> rfl
  · rw [hturn, ← periphMove_accepted_inSeg, periphTurn, hon, hen, if_pos rfl, hscript, hs]
    cases i <;> rfl

/-- `s` after RESET's one write, PERIPH making no move. -/
def State.afterReset (s : State) : State :=
  { s with
    opc := Instr.reset.opcode, ph := .idle, seg := .rst
    en := false, sta := false, sto := false, ea := false, flag := false
    trace := [.finished none, .ioWrite .ctrl 0, .issued (encode .reset)] ++ s.trace }

theorem runReset_accepted {s : State} (hw : s.cfg.wf = true) : runReset (accepted .reset s) = (periphTurn s).afterReset :=
  have hword : (enter .xCtrl ((accepted .reset s).inSeg .rst)).cfg.cw.reset = 0 := by
    rw [enter_cfg]
    exact Config.reset_of_wf hw
  calc runReset (accepted .reset s)
    _ = finishQuiet (writeCtrl 0 (enter .xCtrl ((accepted .reset s).inSeg .rst))) := by rw [← hword]; rfl
    _ = (periphTurn s).afterReset := by
      rw [enter_eq, periphTurn_accepted_inSeg, writeCtrl_zero]
      generalize periphTurn s = v
      rfl

/-- Settles O14: PERIPH has one turn, and the write then clears CTRL. -/
theorem resetResult : Obligations.ResetResult := by
  intro s hw hp
  have hbus := periphTurn_busOnly s
  obtain ⟨-, -, -, -, -, -, -, -, htrace⟩ := periphTurn_keeps s
  have hmay : (periphTurn s).stat = s.stat ∧ (periphTurn s).data = s.data ∨ s.flag = false ∧ s.en = true := by
    rcases periphTurn_mayComplete s with ⟨-, hstat, hdata⟩ | ⟨hoff, hon, -⟩
    · exact .inl ⟨hstat, hdata⟩
    · exact .inr ⟨hoff, hon⟩
  exact ⟨(periphTurn s).afterReset, (execReset_idle s hp).trans (congrArg _ (runReset_accepted hw)), rfl, rfl, rfl, rfl,
    rfl, rfl, hmay, congrArg (_ ++ ·) htrace, hbus.result, hbus.resultValid, hbus.sameSetup, hbus.sameBuf⟩

theorem eq_afterReset_of_execReset {s t : State} (hw : s.cfg.wf = true) (h : exec .reset s = .next t) :
    t = (periphTurn s).afterReset := by
  rw [← runReset_accepted hw]
  exact (Host.Outcome.next.inj (exec_next h)).symm

/-- Settles O15: the first RESET leaves EN = 0, so PERIPH has no turn in the second (R82), whose write finds CTRL as it
leaves it. -/
theorem resetIdempotent : Obligations.ResetIdempotent := by
  intro s t u hw hfirst hsecond
  have ht : t = (periphTurn s).afterReset := eq_afterReset_of_execReset hw hfirst
  have hcfg : t.cfg = s.cfg := ht ▸ (periphTurn_busOnly s).cfg
  have hoff : periphTurn t = t := periphTurn_disabled t (ht ▸ rfl)
  have hu : u = t.afterReset := hoff ▸ eq_afterReset_of_execReset (hcfg ▸ hw) hsecond
  rw [hu, ht]
  rfl

end Sys2Proof.Machine
end

-- ==== The refusal of a command ====
section
/-! PROOFS. When a command is refused, obligation O41. Both of HOST's moves go through `hostCommand`, which tests Busy and
then Illegal (R304); past those tests neither move has a refusal of its own, for acceptance takes every decoded command. -/

namespace Sys2Proof.Machine

theorem hostCommand_busy {w : CmdWord} {s : State} (k : Instr → State → Host.Outcome State Fault Refusal)
    (hp : s.ph ≠ .idle) : hostCommand w k s = .refused .busy := if_pos hp

theorem wrblkOutcome_ne_refused (e : BlockEnd × State) (r : Refusal) : wrblkOutcome e ≠ .refused r := by
  unfold wrblkOutcome
  split <;> exact nofun

/-- A micro-sequence ends in a next state or a fault. -/
theorem runCommand_ne_refused (i : Instr) (s : State) (r : Refusal) : runCommand i s ≠ .refused r := by
  cases i with
  | wrblk dev reg len => exact wrblkOutcome_ne_refused _ r
  | _ => exact nofun

section
variable {i : Instr} {s : State} (hp : s.ph = .idle) (hi : i.wf = true) (r : Refusal)
include hp hi

theorem exec_ne_refused : exec i s ≠ .refused r := by
  rw [exec_eq, accept_next i s hp hi, thenDo_next]
  exact runCommand_ne_refused i _ r

theorem presentCommand_ne_refused : presentCommand i s ≠ .refused r := by
  rw [presentCommand, accept_next i s hp hi, thenDo_next]
  exact nofun

end

/-- R304's order, for a move `k` that refuses no legal command on an idle block. -/
theorem hostCommand_refusalOrder (w : CmdWord) {k : Instr → State → Host.Outcome State Fault Refusal} (s : State)
    (hk : ∀ {i : Instr}, s.ph = .idle → i.wf = true → ∀ r, k i s ≠ .refused r) :
    (s.ph ≠ .idle → hostCommand w k s = .refused .busy) ∧
    (s.ph = .idle → ∀ why, decode w = .error why → hostCommand w k s = .refused (.illegal why)) ∧
    (s.ph = .idle → ∀ i, decode w = .ok i → ∀ r, hostCommand w k s ≠ .refused r) := by
  refine ⟨hostCommand_busy k, fun hp _ hw => hostCommand_refuses k hp hw, fun hp i hw => ?_⟩
  rw [hostCommand_decoded k hp hw]
  exact hk hp (Decodes.of_decode hw).wf

theorem step_eq_hostStep {e : HostEvent} {s : State} {rest : List HostEvent} (hh : s.host = e :: rest) :
    step s = hostStep e { s with host := rest } := by simp only [step, hh]

/-- Settles O41: either move is `hostCommand`, with execution or with acceptance as what follows the two tests. -/
theorem refusalOrder : Obligations.RefusalOrder := by
  intro w s rest e he hh
  rw [step_eq_hostStep hh]
  rcases he with rfl | rfl
  · exact hostCommand_refusalOrder w { s with host := rest } exec_ne_refused
  · exact hostCommand_refusalOrder w { s with host := rest } presentCommand_ne_refused

end Sys2Proof.Machine
end

-- ==== The idle block, and the way to IDLE ====
section
/-! PROOFS. What an idle block does, obligation O52, and that SEQ comes to IDLE from every position, obligation O44.
Each access ends the command, or takes SEQ nearer to its end (`Nearer`): to a later segment, or in the same segment to a
later turn of its loop, to a later phase of the turn, or to a smaller POLL. `State.distance` makes one number of the four,
so that the accesses left are at most that many. -/

namespace Sys2Proof.Machine

/-! ## The idle block (R78, R321) -/

/-- Settles O52: with an empty queue the step is SEQ's, which has none while PH = IDLE. -/
theorem idleStep : Obligations.IdleStep := by
  intro s hp hh
  simp only [step, hh, seqStep, hp]

/-! ## How far SEQ is from the end of the command -/

/-- How many segments of the command come after this one (R45). -/
def Seg.after : Seg → Nat
  | .wbAddr => 2
  | .wbReg => 1
  | .rbA => 4
  | .rbReg => 3
  | .rbB => 2
  | .rbData => 1
  | _ => 0

/-- How many phases of a turn come after this one, where no retry or next byte begins another turn (R45). -/
def Phase.after : Phase → Nat
  | .cfgDiv => 2
  | .cfgPu => 1
  | .aStart => 6
  | .aStartWait => 5
  | .aStartStat => 4
  | .aAddrData => 3
  | .aAddrTrig => 2
  | .aAddrWait => 1
  | .tFetch => 4
  | .tData => 3
  | .tTrig => 2
  | .tWait => 1
  | .rTrig => 4
  | .rWait => 3
  | .rStat => 2
  | .rData => 1
  | .sTrig => 1
  | _ => 0

/-- How many turns of the segment's loop are left: attempts of ADDRESS and bytes of a block. -/
def State.turns (s : State) : Nat := s.retry.toNat + (s.len.toNat - s.idx.toNat)

/-- The four counts as one number, each below the weight of the one before. -/
def State.distance (s : State) : Nat :=
  ((s.seg.after * 512 + s.turns) * 8 + s.ph.after) * 256 + s.poll.toNat

theorem Phase.after_lt (p : Phase) : p.after < 8 := by cases p <;> decide

theorem State.turns_lt (s : State) : s.turns < 512 := by
  have hretry := s.retry.isLt
  have hlen := s.len.isLt
  unfold State.turns
  omega

/-- From `s` to `t` the command ends, or SEQ comes nearer to its end. -/
inductive Nearer (s t : State) : Prop where
  | ended (h : t.ph = .idle)
  | segment (h : t.seg.after < s.seg.after)
  | turn (hseg : t.seg = s.seg) (h : t.turns < s.turns)
  | phase (hseg : t.seg = s.seg) (hturns : t.turns = s.turns) (h : t.ph.after < s.ph.after)
  | poll (hseg : t.seg = s.seg) (hturns : t.turns = s.turns) (hph : t.ph = s.ph) (h : t.poll.toNat < s.poll.toNat)

theorem Nearer.distance_lt {s t : State} (h : Nearer s t) (hbusy : t.ph ≠ .idle) : t.distance < s.distance := by
  have hpoll := t.poll.isLt
  have hphase := t.ph.after_lt
  have hturns := t.turns_lt
  unfold State.distance
  cases h with
  | ended h => exact absurd h hbusy
  | segment h => omega
  | turn hseg h => rw [hseg]; omega
  | phase hseg hturns h => rw [hseg, hturns]; omega
  | poll hseg hturns hph h => rw [hseg, hturns, hph]; omega

/-- Where the outcome is a next state, SEQ is nearer to the end of the command there. -/
inductive ComesNearer (s : State) : Host.Outcome State Fault Refusal → Prop where
  | next {t : State} (h : Nearer s t) : ComesNearer s (.next t)
  | fault (f : Fault) : ComesNearer s (.fault f)
  | refused (r : Refusal) : ComesNearer s (.refused r)

theorem ComesNearer.nearer {s t : State} (h : ComesNearer s (.next t)) : Nearer s t := by
  cases h with
  | next h => exact h

section
variable {s u : State}

theorem BusOnly.turns (h : BusOnly s u) : u.turns = s.turns := by simp only [State.turns, h.retry, h.len, h.idx]

theorem IoOnly.turns (h : IoOnly s u) : u.turns = s.turns := by
  rw [h]
  rfl

/-- The next phase of the same turn. -/
theorem goTo_nearer (hseg : u.seg = s.seg) (hturns : u.turns = s.turns) {p : Phase} (hp : p.after < s.ph.after) :
    Nearer s (u.goTo p) := .phase hseg hturns hp

/-- An access on the bus and then the next phase. -/
theorem BusOnly.nearer (h : BusOnly s u) {p : Phase} (hp : p.after < s.ph.after) : Nearer s (u.goTo p) :=
  goTo_nearer h.seg h.turns hp

/-! ## Where SEQ goes next -/

/-! In these lemmas SEQ goes on from `u`, the state that its access on the bus has led to from `s`. -/

theorem noPosition_comesNearer : ComesNearer s (noPosition u) := .fault _

/-- RDBLK's label `fin`, from the segments before its stop (R232). -/
theorem toFin_nearer (h : 0 < s.seg.after) : Nearer s (toFin u) := .segment h

/-- RDBLK's label `rx`, reached from a segment before the receive loop. -/
theorem toReceive_nearer (hu : u.seg = .rbData) (h : 1 < s.seg.after) : Nearer s (toReceive u) := by
  unfold toReceive
  split
  · exact toFin_nearer (Nat.zero_lt_of_lt h)
  · exact .segment (by rw [hu]; exact h)

/-- WRBLK's label `data`, where it is nearer to go on with the bytes left. -/
theorem toData_nearer (h : Nearer s (u.goTo .tFetch)) : Nearer s (toData u) := by
  unfold toData
  split
  · exact .ended rfl
  · exact h

/-- ADDRESS has ended, and with it the segment. -/
theorem afterAddress_comesNearer (hb : BusOnly s u) (r : Byte) : ComesNearer s (afterAddress r u) := by
  have hseg := hb.seg
  unfold afterAddress
  split
  · exact .next (.ended rfl)
  · rename_i h
    have hleft : 1 < s.seg.after := by rw [← hseg, h]; decide
    refine .next ?_
    split
    · exact .ended rfl
    · exact .segment hleft
  · rename_i h
    have hleft : 3 < s.seg.after := by rw [← hseg, h]; decide
    refine .next ?_
    split
    · exact toFin_nearer (by omega)
    · exact .segment hleft
  · rename_i h
    have hleft : 1 < s.seg.after := by rw [← hseg, h]; decide
    refine .next ?_
    split
    · exact toFin_nearer (by omega)
    · exact toReceive_nearer rfl hleft
  · exact noPosition_comesNearer

/-- TXBYTE has ended: its segment ends, or the data loop of WRBLK comes to its next byte (R220). -/
theorem afterTxByte_comesNearer (hb : BusOnly s u) (h : State.position.sending s = true) (r : Byte) :
    ComesNearer s (afterTxByte r u) := by
  have hseg := hb.seg
  rw [← hb.sending] at h
  rcases sending_iff.1 h with h | h | h | ⟨h, hlt⟩
  · rw [afterTxByte_sb r h]
    exact .next (.ended rfl)
  · have hleft : 0 < s.seg.after := by rw [← hseg, h]; decide
    rw [afterTxByte_wbReg r h]
    refine .next ?_
    split
    · exact .ended rfl
    · exact toData_nearer (.segment hleft)
  · have hleft : 2 < s.seg.after := by rw [← hseg, h]; decide
    rw [afterTxByte_rbReg r h]
    refine .next ?_
    split
    · exact toFin_nearer (by omega)
    · exact .segment hleft
  · rw [afterTxByte_wbData r h]
    refine .next ?_
    split
    · exact .ended rfl
    · have hturn : (u.nextByte.goTo .tFetch).turns < u.turns := by
        simp only [State.turns, State.goTo, State.nextByte]
        bv_omega
      exact toData_nearer (.turn hseg (hb.turns ▸ hturn))

theorem afterStop_comesNearer (e : WaitEnd) : ComesNearer s (afterStop e u) := by
  unfold afterStop
  split
  · exact .next (.ended rfl)
  · exact .next (.ended rfl)
  · exact noPosition_comesNearer

theorem afterWaitOk_comesNearer (hb : BusOnly s u) (hph : u.ph = s.ph) : ComesNearer s (afterWaitOk u) := by
  unfold afterWaitOk
  split
  · rename_i h; exact .next (hb.nearer (by rw [← hph, h]; decide))
  · rename_i h; exact .next (hb.nearer (by rw [← hph, h]; decide))
  · rename_i h; exact .next (hb.nearer (by rw [← hph, h]; decide))
  · rename_i h; exact .next (hb.nearer (by rw [← hph, h]; decide))
  · exact afterStop_comesNearer .ok
  · exact noPosition_comesNearer

theorem receiving_after (h : State.position.receiving s = true) : s.seg.after = 1 := by
  obtain ⟨hseg, -⟩ := receiving_iff.1 h
  rw [hseg]
  rfl

theorem afterWaitTimeout_comesNearer {p : Phase} (hb : BusOnly s u) (hp : u.ph = p) (h : AtWait s p) :
    ComesNearer s (afterWaitTimeout u) := by
  cases h with
  | start h =>
    simp only [afterWaitTimeout, hp]
    split
    · exact afterAddress_comesNearer hb _
    · exact noPosition_comesNearer
  | addr h =>
    simp only [afterWaitTimeout, hp]
    split
    · exact afterAddress_comesNearer hb _
    · exact noPosition_comesNearer
  | send h =>
    simp only [afterWaitTimeout, hp]
    split
    · exact afterTxByte_comesNearer hb h _
    · exact noPosition_comesNearer
  | receive h =>
    rw [afterWaitTimeout, hp]
    exact .next (toFin_nearer (by rw [receiving_after h]; decide))
  | stop h => simpa only [afterWaitTimeout, hp] using afterStop_comesNearer .timeout

/-! ## One access of SEQ -/

/-- A poll that is followed by another lowers POLL (R160). -/
theorem pollStep_comesNearer {p : Phase} (hp : s.ph = p) (h : AtWait s p) : ComesNearer s (pollStep p s) := by
  have hb := doPoll_busOnly p s
  have hph := doPoll_ph p s
  unfold pollStep
  simp only
  split
  · exact afterWaitTimeout_comesNearer (.refl s) hp h
  split
  · exact afterWaitOk_comesNearer hb (hph.trans hp.symm)
  split
  · exact afterWaitTimeout_comesNearer hb hph h
  · refine .next (.poll hb.seg hb.turns (hph.trans hp.symm) ?_)
    rw [doPoll_poll]
    bv_omega

theorem startStatStep_comesNearer (hp : s.ph = .aStartStat) : ComesNearer s (startStatStep s) := by
  have hb := doStatus_busOnly .aStartStat s
  unfold startStatStep
  simp only
  split
  · split
    · exact afterAddress_comesNearer hb _
    · exact .next (hb.nearer (by rw [hp]; decide))
  · exact noPosition_comesNearer

/-- A retry lowers RETRY (R166). -/
theorem addrStatStep_comesNearer : ComesNearer s (addrStatStep s) := by
  have hb := doStatus_busOnly .aAddrStat s
  unfold addrStatStep
  simp only
  generalize doStatus .aAddrStat s = u at hb ⊢
  split
  · split
    · rename_i hretry
      obtain ⟨-, hne⟩ := hretry
      have hturn : (u.nextAttempt.goTo .aStart).turns < u.turns := by
        simp only [State.turns, State.goTo, State.nextAttempt]
        bv_omega
      exact .next (.turn hb.seg (hb.turns ▸ hturn))
    split
    · exact afterAddress_comesNearer hb _
    · exact afterAddress_comesNearer hb _
  · exact noPosition_comesNearer

theorem txDataStep_comesNearer (hp : s.ph = .tData) : ComesNearer s (txDataStep s) := by
  unfold txDataStep
  split
  · exact .next ((doWriteData_busOnly .tData _ s).nearer (by rw [hp]; decide))
  · exact noPosition_comesNearer

theorem txStatStep_comesNearer (h : State.position.sending s = true) : ComesNearer s (txStatStep s) := by
  have hb := doStatus_busOnly .tStat s
  unfold txStatStep
  simp only
  split
  · split
    · exact afterTxByte_comesNearer hb h _
    · exact afterTxByte_comesNearer hb h _
  · exact noPosition_comesNearer

theorem fetchStep_comesNearer (hp : s.ph = .tFetch) : ComesNearer s (fetchStep s) := by
  unfold fetchStep
  split
  · rename_i t hf
    have hb := doFetch_busOnly hf
    exact .next (goTo_nearer (u := t) (p := .tData) hb.seg hb.turns (by rw [hp]; decide))
  · exact .fault _

theorem rxStatStep_comesNearer (hp : s.ph = .rStat) (h : State.position.receiving s = true) :
    ComesNearer s (rxStatStep s) := by
  rw [rxStatStep_eq]
  refine .next ?_
  split
  · exact (doStatus_busOnly .rStat s).nearer (by rw [hp]; decide)
  · exact toFin_nearer (by rw [receiving_after h]; decide)

theorem receiveData_nearer (hp : s.ph = .rData) : Nearer s ((doReceive s).goTo .rStore) := by
  have hb := enter_busOnly .rData s
  unfold doReceive
  generalize enter .rData s = u at hb ⊢
  refine goTo_nearer ?_ ?_ (by rw [hp]; decide)
  · exact hb.seg
  · exact hb.turns

/-- The store comes to the next byte of the block, or to the stop after the last (R231). -/
theorem storeByte_nearer (h : State.position.receiving s = true) : Nearer s (toReceive (doStore s)) := by
  obtain ⟨-, hlt⟩ := receiving_iff.1 h
  have hb := enter_busOnly .rStore s
  unfold toReceive
  split
  · exact toFin_nearer (by rw [receiving_after h]; decide)
  · obtain ⟨-, hidx, -, -, hlen, -⟩ := doStore_spec s
    have hretry : (doStore s).retry = s.retry := hb.retry
    have hturn : (doStore s).turns < s.turns := by
      simp only [State.turns, hidx, hlen, hretry]
      bv_omega
    exact .turn hb.seg hturn

theorem configDiv_nearer (hp : s.ph = .cfgDiv) : Nearer s ((doConfigDiv s).goTo .cfgPu) :=
  goTo_nearer doConfigDiv_seg (doConfigDiv_ioOnly s).turns (by rw [hp]; decide)

theorem configPullup_nearer (hp : s.ph = .cfgPu) : Nearer s ((doConfigPullup s).goTo .cfgEn) :=
  goTo_nearer doConfigPullup_seg (doConfigPullup_ioOnly s).turns (by rw [hp]; decide)

/-- A trigger and then its WAIT. -/
theorem trigger_nearer {p : Phase} (q : Phase) (w : Byte) (hp : p.after < s.ph.after) :
    Nearer s ((doTrigger q w s).goTo p) :=
  BusOnly.nearer (doTrigger_spec q w s).1 hp

/-- In every position of a busy block SEQ's access takes it nearer to the end of the command, whatever PERIPH does. -/
theorem seqStep_comesNearer (hbusy : s.ph ≠ .idle) (hplace : s.position = true) : ComesNearer s (seqStep s) := by
  cases hp : s.ph with
  | idle => exact absurd hp hbusy
  | cfgDiv =>
    rw [seqStep, hp]
    exact .next (configDiv_nearer hp)
  | cfgPu =>
    rw [seqStep, hp]
    exact .next (configPullup_nearer hp)
  | cfgEn =>
    rw [seqStep, hp]
    exact .next (.ended rfl)
  | xCtrl =>
    rw [seqStep, hp]
    exact .next (.ended rfl)
  | aStart =>
    rw [seqStep, hp]
    exact .next (trigger_nearer _ _ (by rw [hp]; decide))
  | aAddrTrig =>
    rw [seqStep, hp]
    exact .next (trigger_nearer _ _ (by rw [hp]; decide))
  | tTrig =>
    rw [seqStep, hp]
    exact .next (trigger_nearer _ _ (by rw [hp]; decide))
  | rTrig =>
    rw [seqStep, hp]
    exact .next (trigger_nearer _ _ (by rw [hp]; decide))
  | sTrig =>
    rw [seqStep, hp]
    exact .next (trigger_nearer _ _ (by rw [hp]; decide))
  | aStartWait =>
    simp only [State.position, hp, Bool.and_eq_true] at hplace
    exact seqStep_of_isWait .aStartWait s hp ▸ pollStep_comesNearer hp (.start hplace.1)
  | aAddrWait =>
    simp only [State.position, hp, Bool.and_eq_true] at hplace
    exact seqStep_of_isWait .aAddrWait s hp ▸ pollStep_comesNearer hp (.addr hplace.1)
  | tWait =>
    simp only [State.position, hp, Bool.and_eq_true] at hplace
    exact seqStep_of_isWait .tWait s hp ▸ pollStep_comesNearer hp (.send hplace.1)
  | rWait =>
    simp only [State.position, hp, Bool.and_eq_true] at hplace
    exact seqStep_of_isWait .rWait s hp ▸ pollStep_comesNearer hp (.receive hplace.1)
  | sWait =>
    simp only [State.position, hp, Bool.and_eq_true] at hplace
    exact seqStep_of_isWait .sWait s hp ▸ pollStep_comesNearer hp (.stop hplace.1)
  | aStartStat =>
    rw [seqStep, hp]
    exact startStatStep_comesNearer hp
  | aAddrData =>
    rw [seqStep, hp]
    exact .next ((doWriteData_busOnly .aAddrData _ s).nearer (by rw [hp]; decide))
  | aAddrStat =>
    rw [seqStep, hp]
    exact addrStatStep_comesNearer
  | tFetch =>
    rw [seqStep, hp]
    exact fetchStep_comesNearer hp
  | tData =>
    rw [seqStep, hp]
    exact txDataStep_comesNearer hp
  | tStat =>
    simp only [State.position, hp] at hplace
    rw [seqStep, hp]
    exact txStatStep_comesNearer hplace
  | rStat =>
    simp only [State.position, hp] at hplace
    rw [seqStep, hp]
    exact rxStatStep_comesNearer hp hplace
  | rData =>
    rw [seqStep, hp]
    exact .next (receiveData_nearer hp)
  | rStore =>
    simp only [State.position, hp] at hplace
    rw [seqStep, hp]
    exact .next (storeByte_nearer hplace)

end

/-! ## The way to IDLE (R340) -/

/-- SEQ has nothing left to do: the block is idle, or a byte of BUF that holds no value was read. -/
inductive AtRest : Host.Outcome State Fault Refusal → Prop where
  | idle {t : State} (h : t.ph = .idle) : AtRest (.next t)
  | noValue (k : Nat) : AtRest (.fault (.bufNoValue k))

theorem AtRest.cases {o : Host.Outcome State Fault Refusal} (h : AtRest o) :
    (∃ t, o = .next t ∧ t.ph = .idle) ∨ ∃ k, o = .fault (.bufNoValue k) := by
  cases h with
  | idle h => exact .inl ⟨_, rfl, h⟩
  | noValue k => exact .inr ⟨k, rfl⟩

/-- The distance bounds the accesses that are left. -/
theorem seqRun_atRest (n : Nat) {s : State} (hs : s.Inv) (hn : s.ph ≠ .idle → s.distance < n) :
    AtRest (seqRun n s) := by
  induction n generalizing s with
  | zero =>
    have hidle : s.ph = .idle := by_contra fun hbusy => Nat.not_lt_zero _ (hn hbusy)
    exact .idle hidle
  | succ n ih =>
    by_cases hidle : s.ph = .idle
    · rw [seqRun_of_idle _ s hidle]
      exact .idle hidle
    have hnear := seqStep_comesNearer hidle hs.place
    have hinv := seqStep_nextInv hs
    rw [seqRun_succ_of_busy n s hidle]
    rcases seqStep_answers hs.place with ⟨t, ht⟩ | ⟨k, hk⟩
    · rw [ht] at hnear hinv ⊢
      exact ih hinv.inv fun hbusy => (hnear.nearer.distance_lt hbusy).trans_le (Nat.le_of_lt_succ (hn hidle))
    · rw [hk]
      exact .noValue k

/-- Settles O44: as many accesses as the distance from the end of the command, and one more. -/
theorem seqTerminates : Obligations.SeqTerminates := by
  intro s hs
  exact ⟨s.distance + 1, (seqRun_atRest _ hs fun _ => Nat.lt_succ_self _).cases⟩

end Sys2Proof.Machine
end

-- ==== The bounds on polls and writes ====
section
/-! PROOFS. The bounds on the polls and on the writes of the IO space of every command, obligation O45. `Within w n` bounds a
stretch of accesses by `w` times POLL_LIMIT polls and `n` writes; bounds of stretches one after the other add up, so each
micro-sequence gets one lemma, and the loops get theirs by induction on the turns left. -/

namespace Sys2Proof.Machine

/-! ## Counting the port events of a stretch -/

/-- From `s` to `t` there are at most `w` times POLL_LIMIT polls and at most `n` writes of the IO space. -/
structure Within (w n : Nat) (s t : State) : Prop where
  cfg : t.cfg = s.cfg
  events : ∃ evs, t.trace = evs ++ s.trace ∧ pollCount evs ≤ s.cfg.pollLimit.toNat * w ∧ ioWriteCount evs ≤ n

section
variable {v w m n : Nat} {s t u : State}

theorem Within.of_trace (hc : t.cfg = s.cfg) (ht : t.trace = s.trace) : Within 0 0 s t :=
  ⟨hc, [], ht, Nat.zero_le _, Nat.zero_le _⟩

theorem Within.refl (s : State) : Within 0 0 s s := .of_trace rfl rfl

/-- Port events without a poll. -/
theorem Within.of_events {evs : List PortEvent} (hc : t.cfg = s.cfg) (ht : t.trace = evs ++ s.trace)
    (hpolls : pollCount evs = 0) (hwrites : ioWriteCount evs ≤ n) : Within 0 n s t :=
  ⟨hc, evs, ht, hpolls.le, hwrites⟩

/-- One write of the IO space. -/
theorem Within.of_ioWrite {r : IoReg} {b : Byte} (hc : t.cfg = s.cfg) (ht : t.trace = .ioWrite r b :: s.trace) :
    Within 0 1 s t :=
  .of_events (evs := [.ioWrite r b]) hc ht rfl le_rfl

theorem Within.trans (h : Within v m s t) (k : Within w n t u) : Within (v + w) (m + n) s u := by
  obtain ⟨es, hes, hespolls, heswrites⟩ := h.events
  obtain ⟨fs, hfs, hfspolls, hfswrites⟩ := k.events
  rw [h.cfg] at hfspolls
  refine ⟨k.cfg.trans h.cfg, fs ++ es, by rw [hfs, hes, List.append_assoc], ?_, ?_⟩
  · rw [pollCount_append, Nat.mul_add]
    omega
  · rw [ioWriteCount_append]
    omega

theorem Within.mono (h : Within v m s t) (hw : v ≤ w) (hn : m ≤ n) : Within w n s t := by
  obtain ⟨es, hes, hpolls, hwrites⟩ := h.events
  exact ⟨h.cfg, es, hes, hpolls.trans (Nat.mul_le_mul_left _ hw), hwrites.trans hn⟩

/-- A stretch that neither polls nor writes, before another. -/
theorem Within.after_quiet (h : Within 0 0 s t) (k : Within w n t u) : Within w n s u := by
  simpa only [Nat.zero_add] using h.trans k

/-- A stretch that neither polls nor writes, after another. -/
theorem Within.then_quiet (h : Within w n s t) (k : Within 0 0 t u) : Within w n s u := h.trans k

end

theorem pollCount_replicate_poll (k : Nat) (b : Bool) : pollCount (List.replicate k (.poll b)) = k := by
  simp [pollCount, List.countP_replicate]

theorem ioWriteCount_replicate_poll (k : Nat) (b : Bool) : ioWriteCount (List.replicate k (.poll b)) = 0 := by
  simp [ioWriteCount, List.countP_replicate]

section
variable (s : State)

/-! ## The accesses of the phases -/

theorem accepted_within (i : Instr) : Within 0 0 s (accepted i s) :=
  .of_events (evs := [.issued (encode i)]) (accepted_cfg s i) (accepted_trace s i) rfl le_rfl

theorem enter_within (p : Phase) : Within 0 0 s (enter p s) := .of_trace (enter_cfg p s) (enter_trace p s)

theorem inSeg_within (g : Seg) : Within 0 0 s (s.inSeg g) := .of_trace rfl rfl

theorem startLoop_within (g : Seg) : Within 0 0 s (s.startLoop g) := .of_trace rfl rfl

theorem withErr_within (e : Byte) : Within 0 0 s { s with err := e } := .of_trace rfl rfl

theorem finish_within (c : Byte) : Within 0 0 s (finish c s) :=
  .of_events (evs := [.finished (some c)]) rfl rfl rfl le_rfl

theorem finishQuiet_within : Within 0 0 s (finishQuiet s) := .of_events (evs := [.finished none]) rfl rfl rfl le_rfl

theorem writeCtrl_within (b : Byte) : Within 0 1 s (writeCtrl b s) := .of_ioWrite rfl rfl

theorem doTrigger_within (p : Phase) (b : Byte) : Within 0 1 s (doTrigger p b s) := by
  obtain ⟨hb, -, -, -, -, -, -, -, -, -, -, -, -, -, -, htrace⟩ := doTrigger_spec p b s
  exact .of_ioWrite hb.cfg htrace

theorem doWriteData_within (p : Phase) (v : Byte) : Within 0 1 s (doWriteData p v s) :=
  .of_ioWrite (doWriteData_busOnly p v s).cfg (doWriteData_trace p v s)

theorem doStatus_within (p : Phase) : Within 0 0 s (doStatus p s) := by
  obtain ⟨v, htrace, -⟩ := doStatus_read s p
  exact .of_events (doStatus_busOnly p s).cfg htrace rfl le_rfl

theorem doFetch_within {t : State} (h : doFetch s = some t) : Within 0 0 s t := by
  refine (enter_within s .tFetch).after_quiet ?_
  simp only [doFetch] at h
  split at h
  · cases h
    exact .of_events (evs := [_]) rfl rfl rfl le_rfl
  · cases h

theorem doReceive_within : Within 0 0 s (doReceive s) :=
  (enter_within s .rData).after_quiet
    (.of_events (evs := [.ioRead .data (enter .rData s).data]) rfl rfl rfl le_rfl)

theorem doStore_within : Within 0 0 s (doStore s) := by
  obtain ⟨-, -, htrace, hcfg, -⟩ := doStore_spec s
  exact .of_events (evs := [.bufWrite s.idx.toNat s.rxb]) hcfg htrace rfl le_rfl

theorem doConfigDiv_within : Within 0 1 s (doConfigDiv s) := by
  refine (enter_within s .cfgDiv).after_quiet ?_
  simp only [doConfigDiv]
  split
  · exact .of_ioWrite rfl rfl
  · exact .of_ioWrite rfl rfl

theorem doConfigPullup_within : Within 0 1 s (doConfigPullup s) :=
  (enter_within s .cfgPu).after_quiet (.of_ioWrite rfl rfl)

theorem doConfigEnable_within : Within 0 1 s (doConfigEnable s) :=
  (enter_within s .cfgEn).after_quiet (writeCtrl_within _ _)

theorem doResetCtrl_within : Within 0 1 s (doResetCtrl s) :=
  (enter_within s .xCtrl).after_quiet (writeCtrl_within _ _)

/-! ## The micro-sequences -/

/-- WAIT makes at most POLL reads of CTRL (R160). -/
theorem wait_pollCount (p : Phase) :
    ∃ evs, (wait p s).2.trace = evs ++ s.trace ∧ pollCount evs ≤ s.poll.toNat ∧ ioWriteCount evs = 0 := by
  obtain ⟨k, hk, -, ⟨-, hpos, htrace, -⟩ | ⟨-, -, htrace⟩⟩ := waitBounded p s
  · refine ⟨_, htrace, ?_, ?_⟩
    · have hcount : pollCount (pollsDone k) = pollCount (List.replicate (k - 1) (.poll false)) + 1 :=
        List.countP_cons_of_pos rfl
      rw [hcount, pollCount_replicate_poll]
      omega
    · exact ioWriteCount_replicate_poll (k - 1) false
  · exact ⟨_, htrace, (pollCount_replicate_poll k false).trans_le hk, ioWriteCount_replicate_poll k false⟩

/-- A trigger loads POLL with POLL_LIMIT, so that the WAIT after it is one of the command's (R160, R161). -/
theorem triggerWait_within (p q : Phase) (b : Byte) : Within 1 1 s (wait p (doTrigger q b s)).2 := by
  obtain ⟨hb, -, hpoll, -⟩ := doTrigger_spec q b s
  obtain ⟨evs, htrace, hpolls, hwrites⟩ := wait_pollCount (doTrigger q b s) p
  have hwait : Within 1 0 (doTrigger q b s) (wait p (doTrigger q b s)).2 :=
    ⟨(wait_busOnly p _).cfg, evs, htrace, by rwa [Nat.mul_one, hb.cfg, ← hpoll], hwrites.le⟩
  exact (doTrigger_within s q b).trans hwait

theorem stopSeq_within : Within 1 1 s (stopSeq s).2 := triggerWait_within s .sWait .sTrig s.cfg.cw.stop

theorem txByte_within (v : Byte) (c : TxCodes) : Within 1 2 s (txByte v c s).2 := by
  have hwait : Within 1 2 s (txWait v s).2 :=
    (doWriteData_within s .tData v).trans (triggerWait_within _ .tWait .tTrig _)
  cases he : (txWait v s).1 with
  | timeout => rw [txByte_timeout v c s he]; exact hwait
  | ok => rw [txByte_ok v c s he]; exact hwait.then_quiet (doStatus_within _ .tStat)

theorem addressAttempt_within (dev : BitVec 7) (dir : Dir) (c : AddrCodes) :
    Within 2 3 s (addressAttempt dev dir c s).2 := by
  have hwait : Within 1 1 s (startWait s).2 := triggerWait_within s .aStartWait .aStart _
  have hstat : Within 1 1 s (startStat s) := hwait.then_quiet (doStatus_within _ .aStartStat)
  have haddr : Within 2 3 s (addrWait dev dir (startStat s)).2 :=
    hstat.trans ((doWriteData_within _ .aAddrData _).trans (triggerWait_within _ .aAddrWait .aAddrTrig _))
  cases he : (startWait s).1 with
  | timeout =>
    rw [addressAttempt_startTimeout _ _ c s he]
    exact hwait.mono (by decide) (by decide)
  | ok =>
    cases hs : isStartStatus (startStat s).cfg.status (startStat s).st with
    | false =>
      rw [addressAttempt_startStatus _ _ c s he hs]
      exact hstat.mono (by decide) (by decide)
    | true =>
      cases ha : (addrWait dev dir (startStat s)).1 with
      | timeout => rw [addressAttempt_addrTimeout _ _ c s he hs ha]; exact haddr
      | ok => rw [addressAttempt_addrOk _ _ c s he hs ha]; exact haddr.then_quiet (doStatus_within _ .aAddrStat)

/-- With `n` retries left ADDRESS makes at most `n + 1` attempts (R165, R166). -/
theorem addressLoop_within (dev : BitVec 7) (dir : Dir) (c : AddrCodes) (n : Nat) :
    Within (2 * (n + 1)) (3 * (n + 1)) s (addressLoop dev dir c n s).2 := by
  induction n using Nat.strong_induction_on generalizing s with | _ n ih
  have hattempt := addressAttempt_within s dev dir c
  cases h : (addressAttempt dev dir c s).1 with
  | some code =>
    rw [addressLoop_failed _ _ c s n h]
    exact hattempt.mono (by omega) (by omega)
  | none =>
    by_cases hn : (addressAttempt dev dir c s).2.st = nackOf (addressAttempt dev dir c s).2.cfg.status dir ∧ n ≠ 0
    · obtain ⟨hnack, hpos⟩ := hn
      obtain ⟨m, rfl⟩ := Nat.exists_eq_succ_of_ne_zero hpos
      have hnext : Within 0 0 (addressAttempt dev dir c s).2 (addressAttempt dev dir c s).2.nextAttempt :=
        .of_trace rfl rfl
      rw [addressLoop_retry _ _ c s m h hnack]
      exact ((hattempt.then_quiet hnext).trans (ih m (Nat.lt_succ_self m) _)).mono (by omega) (by omega)
    · rw [addressLoop_verdict _ _ c s n h hn]
      exact hattempt.mono (by omega) (by omega)

theorem address_within (dev : BitVec 7) (dir : Dir) (c : AddrCodes) :
    Within (2 * (s.cfg.addrRetries.toNat + 1)) (3 * (s.cfg.addrRetries.toNat + 1)) s (address dev dir c s).2 :=
  have hstart : Within 0 0 s { s with dir := dir, retry := s.cfg.addrRetries } := .of_trace rfl rfl
  hstart.after_quiet (addressLoop_within _ dev dir c _)

/-! ## The block transfers -/

theorem writeLoop_within (n : Nat) : Within n (2 * n) s (writeLoop n s).2 := by
  induction n generalizing s with
  | zero => exact .refl s
  | succ n ih =>
    cases hf : doFetch s with
    | none =>
      rw [writeLoop_noFetch n hf]
      exact (Within.refl s).mono (Nat.zero_le _) (Nat.zero_le _)
    | some t =>
      have hsend : Within 1 2 s (sendFetched t).2 := (doFetch_within s hf).after_quiet (txByte_within t _ _)
      have hnext : Within 0 0 (sendFetched t).2 (sendFetched t).2.nextByte := .of_trace rfl rfl
      rw [writeLoop_fetch n hf]
      split
      · exact hsend.mono (by omega) (by omega)
      · exact ((hsend.then_quiet hnext).trans (ih _)).mono (by omega) (by omega)

theorem wbAddress_within :
    Within (2 * (s.cfg.addrRetries.toNat + 1)) (3 * (s.cfg.addrRetries.toNat + 1)) s (wbAddress s).2 :=
  (inSeg_within s .wbAddr).after_quiet (address_within (s.inSeg .wbAddr) _ _ _)

theorem wbRegByte_within :
    Within (2 * (s.cfg.addrRetries.toNat + 1) + 1) (3 * (s.cfg.addrRetries.toNat + 1) + 2) s (wbRegByte s).2 :=
  (wbAddress_within s).trans ((inSeg_within _ .wbReg).after_quiet (txByte_within _ _ _))

theorem runWrblk_within :
    Within (2 * (s.cfg.addrRetries.toNat + 1) + 1 + s.len.toNat)
      (3 * (s.cfg.addrRetries.toNat + 1) + 2 + 2 * s.len.toNat) s (runWrblk s).2 := by
  rw [runWrblk_eq]
  split
  · exact (wbAddress_within s).mono (by omega) (by omega)
  split
  · exact (wbRegByte_within s).mono (by omega) (by omega)
  · rw [← wbRegByte_len s]
    exact (wbRegByte_within s).trans ((startLoop_within _ .wbData).after_quiet (writeLoop_within _ _))

theorem readLoop_within (n : Nat) : Within n n s (readLoop n s) := by
  induction n generalizing s with
  | zero => exact .refl s
  | succ n ih =>
    have hwait : Within 1 1 s (receiveWait s).2 := triggerWait_within s .rWait .rTrig _
    have hstat : Within 1 1 s (receiveStat s) := hwait.then_quiet (doStatus_within _ .rStat)
    cases he : (receiveWait s).1 with
    | timeout =>
      rw [readLoop_timeout s n he]
      exact (hwait.then_quiet (withErr_within _ _)).mono (by omega) (by omega)
    | ok =>
      rw [readLoop_ok s n he]
      split
      · have hstored := (hstat.then_quiet (doReceive_within _)).then_quiet (doStore_within _)
        exact (hstored.trans (ih _)).mono (by omega) (by omega)
      · exact (hstat.then_quiet (withErr_within _ _)).mono (by omega) (by omega)

theorem rbAddress_within :
    Within (2 * (s.cfg.addrRetries.toNat + 1)) (3 * (s.cfg.addrRetries.toNat + 1)) s (rbAddress s).2 :=
  have hstart : Within 0 0 s s.readStart := .of_trace rfl rfl
  hstart.after_quiet (address_within s.readStart _ _ _)

theorem rbRegByte_within :
    Within (2 * (s.cfg.addrRetries.toNat + 1) + 1) (3 * (s.cfg.addrRetries.toNat + 1) + 2) s (rbRegByte s).2 :=
  (rbAddress_within s).trans ((inSeg_within _ .rbReg).after_quiet (txByte_within _ _ _))

/-- The second addressing has retries of its own (R234). -/
theorem rbReaddress_within :
    Within (4 * (s.cfg.addrRetries.toNat + 1) + 1) (6 * (s.cfg.addrRetries.toNat + 1) + 2) s (rbReaddress s).2 := by
  have haddr : Within (2 * (s.cfg.addrRetries.toNat + 1)) (3 * (s.cfg.addrRetries.toNat + 1))
      ((rbRegByte s).2.inSeg .rbB) (rbReaddress s).2 := by
    rw [← rbRegByte_cfg s]
    exact address_within ((rbRegByte s).2.inSeg .rbB) _ _ _
  have hall := (rbRegByte_within s).trans ((inSeg_within _ .rbB).after_quiet haddr)
  exact hall.mono (by omega) (by omega)

theorem readPhases_within :
    Within (4 * (s.cfg.addrRetries.toNat + 1) + 1 + s.len.toNat) (6 * (s.cfg.addrRetries.toNat + 1) + 2 + s.len.toNat) s
      (readPhases s) := by
  rw [readPhases_eq]
  split
  · exact ((rbAddress_within s).then_quiet (withErr_within _ _)).mono (by omega) (by omega)
  split
  · exact ((rbRegByte_within s).then_quiet (withErr_within _ _)).mono (by omega) (by omega)
  split
  · exact ((rbReaddress_within s).then_quiet (withErr_within _ _)).mono (by omega) (by omega)
  · rw [← rbReaddress_len s]
    exact (rbReaddress_within s).trans ((startLoop_within _ .rbData).after_quiet (readLoop_within _ _))

theorem rbStop_within :
    Within (4 * (s.cfg.addrRetries.toNat + 1) + 2 + s.len.toNat)
      (6 * (s.cfg.addrRetries.toNat + 1) + 2 + s.len.toNat + 1) s (rbStop s).2 :=
  ((readPhases_within s).trans ((inSeg_within _ .rbStop).after_quiet (stopSeq_within _))).mono (by omega) (by omega)

/-! ## The commands -/

theorem runConfigure_within : Within 0 3 s (runConfigure s) :=
  ((((inSeg_within s .cfg).after_quiet (doConfigDiv_within _)).trans (doConfigPullup_within _)).trans
    (doConfigEnable_within _)).then_quiet (finishQuiet_within _)

theorem runReset_within : Within 0 1 s (runReset s) :=
  ((inSeg_within s .rst).after_quiet (doResetCtrl_within _)).then_quiet (finishQuiet_within _)

theorem runBegin_within :
    Within (2 * (s.cfg.addrRetries.toNat + 1)) (3 * (s.cfg.addrRetries.toNat + 1)) s (runBegin s) :=
  ((inSeg_within s .bt).after_quiet (address_within (s.inSeg .bt) _ _ _)).then_quiet (finish_within _ _)

theorem runSend_within : Within 1 2 s (runSend s) :=
  ((inSeg_within s .sb).after_quiet (txByte_within _ _ _)).then_quiet (finish_within _ _)

theorem runStop_within : Within 1 1 s (runStop s) := by
  obtain ⟨c, hc⟩ := runStop_eq s
  rw [hc]
  exact ((inSeg_within s .st).after_quiet (stopSeq_within _)).then_quiet (finish_within _ c)

/-- R340's table, from the accepted state on: each command has its operands in the latches there. -/
theorem runCommand_within (i : Instr) {t : State} (h : runCommand i (accepted i s) = .next t) :
    Within (maxWaits s.cfg i) (maxIoWrites s.cfg i) (accepted i s) t := by
  cases i with
  | configure khz pu => cases h; exact runConfigure_within _
  | beginTrans dev => cases h; exact runBegin_within (accepted (.beginTrans dev) s)
  | send val => cases h; exact runSend_within _
  | wrblk dev reg len =>
    obtain ⟨c, -, rfl⟩ := wrblkOutcome_next h
    exact (runWrblk_within (accepted (.wrblk dev reg len) s)).then_quiet (finish_within _ c)
  | rdblk dev reg len =>
    cases h
    exact (rbStop_within (accepted (.rdblk dev reg len) s)).then_quiet (finish_within _ _)
  | stop => cases h; exact runStop_within _
  | reset => cases h; exact runReset_within _

end

/-- Settles O45: acceptance makes no access, and the rest is the command's micro-sequence. -/
theorem accessBounds : Obligations.AccessBounds := fun i s _ h =>
  ((accepted_within s i).after_quiet (runCommand_within s i (exec_next h))).events

end Sys2Proof.Machine
end
